-- ==== Sys2Proof/Word.lean ====
section
/-! DEFINITION. The word type of HV2 and the widths of its fields (rules R5, R7, R8): every register,
address and data word is 32 unsigned bits, bit 0 the least significant. -/

namespace Sys2Proof

/-- A 32-bit unsigned word (R5, R8): a register, an address, a datum or an instruction word. -/
abbrev Word := BitVec 32

/-- An 8-bit byte, the unit in which a RAM device holds its storage. -/
abbrev Byte := BitVec 8

/-- The number of a general register, `r0` to `r31`: the 5 bits every register field of an
instruction has (R21, R83 to R90). -/
abbrev RegNum := BitVec 5

/-- A privilege level, PL0 (highest privilege) to PL3 (R5, R20, R37). -/
abbrev PrivLevel := BitVec 2

/-- The number of the program counter, `r31` (R23). -/
abbrev pcNum : RegNum := 31#5

/-- The number of the link register, `r30` (R24). -/
abbrev linkNum : RegNum := 30#5

end Sys2Proof
end

