-- ==== Sys2Proof/Config.lean ====
section
/-! DEFINITION. What an implementation fixes: the parameters of rule R5, the transactions of the
device ports (R4, R61, R66), the reference platform of decision D20, and the FREE VALUES the spec
leaves to the devices (R6, R16), which are constants without a body. -/

namespace Sys2Proof

/-- The access size codes of R5: 0 byte, 1 short, 2 long, 3 execute (a fetch). -/
inductive SizeCode where
  | byte
  | short
  | long
  | execute
  deriving DecidableEq, Repr

/-- The access types of translation (R10, R55). -/
inductive AccessType where
  | read
  | write
  | exec
  deriving DecidableEq, Repr

/-- One call the core makes to a memory-mapped device (R61), as the device sees it: its local address,
the size code and, for a write, the value. -/
inductive DeviceCall where
  | read (localAddr : Word) (size : SizeCode)
  | write (localAddr value : Word) (size : SizeCode)
  deriving DecidableEq, Repr

/-- One call the bus makes to a port-mapped device (R66): the port number, the size code and, for a
write, the value. -/
inductive PortCall where
  | read (port : BitVec 16) (size : SizeCode)
  | write (port : BitVec 16) (value : Word) (size : SizeCode)
  deriving DecidableEq, Repr

namespace Config

/-- CAUSE_RESET, the value reset places in CAUSE (R5, R42, R195). -/
def causeReset : Word := 0x000000FF#32

/-- What a read that no device owns returns, whatever its size (R64, R66). -/
def openBus : Word := 0xFFFFFFFF#32

/-- What a byte past the end of a RAM device reads as (D20, I21). -/
def pastRamEnd : Byte := 0xFF#8

/-- What a byte of a RAM device that nothing has written reads as. DESIGN CHOICE (log entry 2),
unsafe: the spec gives RAM no contents after power-on; its worked programs take 0. -/
def ramBackground : Byte := 0x00#8

/-- First address of the RAM of the reference platform (D20). -/
def referenceRamStart : Nat := 0x00000000

/-- End, exclusive, of the RAM of the reference platform (D20). -/
def referenceRamStop : Nat := 0x00001000

/-- FREE VALUE (log entry 3), safe. What an EXTERNAL memory-mapped device answers to a read: a function,
about which nothing is known, of which device it is, of every call the core made to it before (newest
first) and of the call itself (R16, R61, I19). No two reads of one device have the same history, so
each read is a free 32-bit draw. -/
opaque memDeviceRead (device : Nat) (earlier : List DeviceCall) (localAddr : Word) (size : SizeCode) :
    Word

/-- FREE VALUE (log entry 4), safe. What a port-mapped device answers to a read: as `memDeviceRead`, of
the device, the calls made to it before (newest first), the port and the size (R6, R16, R66, I19). The bus
masks it by the size. -/
opaque portDeviceRead (device : Nat) (earlier : List PortCall) (port : BitVec 16) (size : SizeCode) :
    Word

end Config

end Sys2Proof
end

