-- ==== Sys2Proof/Machine/State.lean ====
section
/-! DEFINITION. The state of the machine (R20), as plain data: the core's registers, pipeline,
privilege level, COP0 block, MMU control word and mapping tables; and the devices attached to its two
buses, the parameters MemDevices and PortDevices of R6. -/

namespace Sys2Proof.Machine

/-- The storage of a RAM device: (local address, byte) pairs, addresses strictly rising, no entry equal
to what an unlisted address reads as (Machine/Memory.lean: `Memory.wf`). -/
abbrev Memory := List Host.Cell

/-- One mapping entry: four 32-bit words in the order of the COP4 register space (R46). -/
structure MapEntry where
  /-- Word 0, PBASE, the physical base. -/
  pbase : Word
  /-- Word 1, VBASE, the virtual base. -/
  vbase : Word
  /-- Word 2, SIZE. -/
  size : Word
  /-- Word 3, ATTR: bit 0 R, bit 1 W, bit 2 X; bits 31:3 stored, no effect. -/
  attr : Word
  deriving DecidableEq, Repr

/-- What stands behind a memory-mapped device (R61, I19). -/
inductive DeviceBody where
  /-- A little-endian RAM (D20): its bytes by local address. -/
  | ram (cells : Memory)
  /-- A device of which nothing is known: its identity and the calls made to it, newest first. Its
  reads are the free value `Config.memDeviceRead` (R16; log entry 3). -/
  | external (id : Nat) (calls : List DeviceCall)
  deriving DecidableEq, Repr

/-- A memory-mapped device: its physical range `[start, stop)` and what stands behind it (R61). -/
structure MemDevice where
  start : Nat
  stop : Nat
  body : DeviceBody
  deriving DecidableEq, Repr

/-- A port-mapped device: its discrete 16-bit port numbers, its identity and the calls made to it,
newest first. Its reads are the free value `Config.portDeviceRead` (R66; log entry 4). -/
structure PortDevice where
  ports : List (BitVec 16)
  id : Nat
  calls : List PortCall
  deriving DecidableEq, Repr

/-- The state of the machine: the core state of R20, and the devices on its buses. -/
structure State where
  /-- x[0] to x[31]; x[31] is the program counter, x[30] the link register (R21, R23, R24). -/
  regs : Vector Word 32
  /-- Pipeline slot 0, the newest fetched word (R27). -/
  pipe0 : Word
  /-- Pipeline slot 1 (R27). -/
  pipe1 : Word
  /-- Pipeline slot 2, the word executed this cycle (R27). -/
  pipe2 : Word
  /-- The privilege level, 0 the highest privilege (R37). -/
  pl : PrivLevel
  /-- COP0 register 0; bit 3 is FOFT, the other bits are stored and have no effect (R40). -/
  cr0 : Word
  /-- COP0 register 1, a storage cell (R41). -/
  cr1 : Word
  /-- COP0 register 2, CAUSE (R42). -/
  cause : Word
  /-- COP0 register 3, HANDLER (R43). -/
  handler : Word
  /-- COP0 register 4, EPC (R44). -/
  epc : Word
  /-- COP4 register 0, the MMU control word MMUCR (R45). -/
  mmucr : Word
  /-- The four mapping tables of 32 entries (R46). -/
  maps : Vector (Vector MapEntry 32) 4
  /-- The memory-mapped devices in registration order: MemDevices (R6, R61). -/
  devices : List MemDevice
  /-- The port-mapped devices in registration order: PortDevices (R6, R66). -/
  ports : List PortDevice
  deriving DecidableEq, Repr

/-- Why the machine could stop with a fault. NOTHING STOPS IT: every word executes (R31), no operation
blocks (R14), there is no halt (R194), and every fault of the spec is an exception that the dispatcher
takes (R179). So the type has no constructor, which is safe (log entry 9). -/
inductive Fault where
  deriving DecidableEq, Repr

/-- Why a step could have no meaning. -/
inductive Refusal where
  /-- An instruction without a meaning yet. Raised by no arm of `exec`: every instruction has its
  meaning. Safe. -/
  | notModelled (mnemonic : String)
  deriving DecidableEq, Repr

/-- A mapping entry after reset: all four words 0, so it matches nothing (R46, R50). -/
def MapEntry.zero : MapEntry := { pbase := 0#32, vbase := 0#32, size := 0#32, attr := 0#32 }

/-- The RAM of the reference platform (D20), with nothing written. DESIGN CHOICE (log entry 1). -/
def MemDevice.referenceRam : MemDevice :=
  { start := Config.referenceRamStart, stop := Config.referenceRamStop, body := .ram [] }

/-- The machine right after reset (R50, R195), the reference platform attached (D20, log entry 1). -/
def State.reset : State where
  regs := Vector.replicate 32 0#32
  pipe0 := 0#32
  pipe1 := 0#32
  pipe2 := 0#32
  pl := 0#2
  cr0 := 0#32
  cr1 := 0#32
  cause := Config.causeReset
  handler := 0#32
  epc := 0#32
  mmucr := 0#32
  maps := Vector.replicate 4 (Vector.replicate 32 MapEntry.zero)
  devices := [MemDevice.referenceRam]
  ports := []

end Sys2Proof.Machine
end

