-- ==== Sys2Proof/Machine/Memory.lean ====
section
/-! DEFINITION. The storage of a RAM device as a canonical list of (address, byte) pairs, and the RAM of
decision D20 built on it: little-endian, bytes past its end read 0xFF and are not written. -/

namespace Sys2Proof.Machine

/-- The byte at an address; an unlisted address reads `Config.ramBackground` (log entry 2). -/
def Memory.read : Memory → Nat → Byte
  | [], _ => Config.ramBackground
  | (k, b) :: rest, a => if k = a then b else Memory.read rest a

/-- Write one byte and keep the canonical form: writing what an unlisted address reads as removes the
entry, so that equal memories are equal data. -/
def Memory.write : Memory → Nat → Byte → Memory
  | [], a, v => if v = Config.ramBackground then [] else [(a, v)]
  | (k, b) :: rest, a, v =>
    if a < k then (if v = Config.ramBackground then (k, b) :: rest else (a, v) :: (k, b) :: rest)
    else if a = k then (if v = Config.ramBackground then rest else (a, v) :: rest)
    else (k, b) :: Memory.write rest a v

/-- The canonical form from address `lo` on: addresses strictly rising, all at least `lo`, and no entry
equal to what an unlisted address reads as. -/
def Memory.wfFrom (lo : Nat) : Memory → Bool
  | [] => true
  | (k, b) :: rest => decide (lo ≤ k) && decide (b ≠ Config.ramBackground) && Memory.wfFrom (k + 1) rest

/-- The canonical form of a memory. -/
def Memory.wf (m : Memory) : Bool := Memory.wfFrom 0 m

/-- Every listed address is below `size`. -/
def Memory.below (size : Nat) (m : Memory) : Bool := m.all fun c => decide (c.1 < size)

/-- Byte `i` of a word, byte 0 the least significant (R7). -/
def byteOf (v : Word) (i : Nat) : Byte := v.extractLsb' (8 * i) 8

/-- How many bytes an access of a size code moves (R5, R70). -/
def accessBytes : SizeCode → Nat
  | .byte => 1
  | .short => 2
  | .long => 4
  | .execute => 4

/-- One byte of a RAM of `size` bytes; past its end, 0xFF (D20, I21). -/
def ramByte (size : Nat) (m : Memory) (a : Nat) : Byte :=
  if a < size then Memory.read m a else Config.pastRamEnd

/-- A RAM's answer to a read: the consecutive bytes from the local address, the lowest address in bits
7:0 (R69, R73, D20). A fetch reads four bytes (R70). -/
def ramRead (size : Nat) (m : Memory) (a : Nat) : SizeCode → Word
  | .byte => 0#24 ++ ramByte size m a
  | .short => 0#16 ++ ramByte size m (a + 1) ++ ramByte size m a
  | .long =>
    ramByte size m (a + 3) ++ ramByte size m (a + 2) ++ ramByte size m (a + 1) ++ ramByte size m a
  | .execute =>
    ramByte size m (a + 3) ++ ramByte size m (a + 2) ++ ramByte size m (a + 1) ++ ramByte size m a

/-- Write one byte of a RAM of `size` bytes; a byte past its end is dropped (D20, I21). -/
def ramWriteByte (size : Nat) (m : Memory) (a : Nat) (v : Byte) : Memory :=
  if a < size then Memory.write m a v else m

/-- A RAM's reaction to a write of the `n` low bytes of `v` from local address `a` on (R69, R73, D20). -/
def ramWriteBytes (size : Nat) (a : Nat) (v : Word) : Nat → Memory → Memory
  | 0, m => m
  | n + 1, m => ramWriteByte size (ramWriteBytes size a v n m) (a + n) (byteOf v n)

/-- A RAM's reaction to a write of a size code (R69, R73, D20). -/
def ramWrite (size : Nat) (m : Memory) (a : Nat) (v : Word) (sz : SizeCode) : Memory :=
  ramWriteBytes size a v (accessBytes sz) m

end Sys2Proof.Machine
end

