-- ==== Sys2Proof/Machine/Ops.lean ====
section
/-! DEFINITION. The named operations every instruction is built from: general registers, control bits,
the pipeline flush, TAKING AN EXCEPTION (the dispatcher of R179), the end of every instruction (R32),
and the return from an exception (R184). -/

namespace Sys2Proof.Machine

/-! ### General registers -/

/-- `x[r]` (R9, R21). Register 0 reads its cell, which the end of every instruction clears (R22). -/
def State.reg (s : State) (r : RegNum) : Word := s.regs.get r.toFin

/-- `x[r] <- v` (R9, R21). A write to `x[0]` is accepted and cleared at the end of the instruction (R22). -/
def State.setReg (s : State) (r : RegNum) (v : Word) : State :=
  { s with regs := s.regs.set r.toNat v r.isLt }

/-- `pc`, a name for `x[31]` (R9, R23). -/
def State.pc (s : State) : Word := s.reg pcNum

/-- `pc <- v` (R9, R23). -/
def State.setPc (s : State) (v : Word) : State := s.setReg pcNum v

/-! ### Single fields -/

def State.setPl (s : State) (v : PrivLevel) : State := { s with pl := v }

def State.setCr0 (s : State) (v : Word) : State := { s with cr0 := v }

def State.setCr1 (s : State) (v : Word) : State := { s with cr1 := v }

def State.setCause (s : State) (v : Word) : State := { s with cause := v }

def State.setHandler (s : State) (v : Word) : State := { s with handler := v }

def State.setEpc (s : State) (v : Word) : State := { s with epc := v }

def State.setMmucr (s : State) (v : Word) : State := { s with mmucr := v }

def State.setMaps (s : State) (v : Vector (Vector MapEntry 32) 4) : State := { s with maps := v }

def State.setDevices (s : State) (v : List MemDevice) : State := { s with devices := v }

def State.setPorts (s : State) (v : List PortDevice) : State := { s with ports := v }

/-- The three pipeline slots, newest first. -/
def State.setPipe (s : State) (p0 p1 p2 : Word) : State :=
  { s with pipe0 := p0, pipe1 := p1, pipe2 := p2 }

/-! ### Control bits -/

/-- FOFT, flush-on-flow-transfer: CR0 bit 3 (R40). -/
def State.foft (s : State) : Bool := s.cr0.getLsbD 3

/-- MMUCR.EN, bit 0 (R45). -/
def mmuEn (w : Word) : Bool := w.getLsbD 0

/-- MMUCR.EOP1, bit 1 (R45). -/
def mmuEop1 (w : Word) : Bool := w.getLsbD 1

/-- MMUCR.DOP0, bit 2 (R45). -/
def mmuDop0 (w : Word) : Bool := w.getLsbD 2

/-- MMUCR.RPT, bit 3 (R45). -/
def mmuRpt (w : Word) : Bool := w.getLsbD 3

/-- MMUCR.XMA, bit 4 (R45). -/
def mmuXma (w : Word) : Bool := w.getLsbD 4

/-- MMUCR.AMI, bits 9:8 (R45). -/
def mmuAmi (w : Word) : BitVec 2 := w.extractLsb' 8 2

/-- MMUCR with EN set or cleared, every other bit kept. -/
def setMmuEn (w : Word) (b : Bool) : Word :=
  if b then w ||| 0x00000001#32 else w &&& 0xFFFFFFFE#32

/-- MMUCR with AMI replaced, every other bit kept. -/
def setMmuAmi (w : Word) (m : BitVec 2) : Word :=
  (w &&& 0xFFFFFCFF#32) ||| (m.setWidth 32 <<< 8)

/-! ### The pipeline -/

/-- A pipeline flush: all three slots become 0 and nothing else changes (R28). -/
def State.flush (s : State) : State := s.setPipe 0#32 0#32 0#32

/-- The flush after a flow transfer, which FOFT decides (R32, R179 step 8). -/
def State.flushIfFoft (s : State) : State := if s.foft then s.flush else s

/-! ### Taking an exception -/

/-- The causes of R178. `tpl0` to `tpl3` and `invalidTrapLevel` are codes that no rule raises (C11, I13);
`reset` is never raised by the dispatcher, reset places it in CAUSE (R195). -/
inductive Cause where
  | syscall
  | debug
  | swe
  | tpl0
  | tpl1
  | tpl2
  | tpl3
  | illegalInstruction
  | invalidCop
  | invalidTrapLevel
  | noMapping
  | protRead
  | protWrite
  | protExec
  | fetchMisalign
  | dataMisalign
  | arithmetic
  | reset
  deriving DecidableEq, Repr

/-- The code of a cause, `CAUSE[7:0]` (R178). -/
def causeCode : Cause → BitVec 8
  | .syscall => 0x00#8
  | .debug => 0x01#8
  | .swe => 0x02#8
  | .tpl0 => 0x03#8
  | .tpl1 => 0x04#8
  | .tpl2 => 0x05#8
  | .tpl3 => 0x06#8
  | .illegalInstruction => 0x07#8
  | .invalidCop => 0x08#8
  | .invalidTrapLevel => 0x09#8
  | .noMapping => 0x0A#8
  | .protRead => 0x0B#8
  | .protWrite => 0x0C#8
  | .protExec => 0x0D#8
  | .fetchMisalign => 0x0E#8
  | .dataMisalign => 0x0F#8
  | .arithmetic => 0x10#8
  | .reset => 0xFF#8

/-- `max(PL - 1, 0)`: privilege raised by one level, clamped at PL0 (R37, R179 step 4). -/
def raisedPl (pl : PrivLevel) : PrivLevel := if pl = 0#2 then 0#2 else pl - 1#2

/-- What exception entry to level `pl` makes of MMUCR: remap-on-privilege-transition, then
disable-on-privilege-0, then enable-on-privilege-1 (R179 steps 5 to 7). -/
def entryMmucr (pl : PrivLevel) (w : Word) : Word :=
  let w := if mmuRpt w then setMmuAmi w pl else w
  let w := if mmuDop0 w && decide (pl = 0#2) then setMmuEn w false else w
  if mmuEop1 w && decide (pl = 1#2) then setMmuEn w true else w

/-- THE DISPATCHER, `Dispatch(code, imm24)` of R179: CAUSE, EPC, the PC to HANDLER, the privilege level,
the MMUCR policies, and the flush under FOFT. EPC takes `x[31]` as it is now (R180). -/
def State.dispatch (c : Cause) (imm24 : BitVec 24) (s : State) : State :=
  let s := s.setCause (imm24 ++ causeCode c)
  let s := s.setEpc s.pc
  let s := s.setPc s.handler
  let s := s.setPl (raisedPl s.pl)
  let s := s.setMmucr (entryMmucr s.pl s.mmucr)
  s.flushIfFoft

/-! ### The end of every instruction -/

/-- `EndOfInstruction` of R32 for an instruction that raised nothing; `flow` says whether it wrote x[31]
or was a taken branch. -/
def State.endOfInstruction (flow : Bool) (s : State) : State :=
  (if flow then s.flushIfFoft else s).setReg 0#5 0#32

/-- Finish an instruction whose one register write is `x[rd] <- v`; a write to r31 is a flow transfer
(R32). -/
def State.retireWrite (rd : RegNum) (v : Word) (s : State) : State :=
  (s.setReg rd v).endOfInstruction (decide (rd = pcNum))

/-- Finish an instruction that writes no register and is no flow transfer (R32). -/
def State.retirePlain (s : State) : State := s.endOfInstruction false

/-- Finish an instruction that raises `c`: the dispatcher runs and is its only effect, the flush is the
dispatcher's, and x[0] is cleared (R32, R181). -/
def State.retireRaise (c : Cause) (imm24 : BitVec 24) (s : State) : State :=
  (s.dispatch c imm24).endOfInstruction false

/-- THE RETURN FROM AN EXCEPTION (R184). The ISA has no return instruction: a handler returns by the
flow transfer `mfcr r31, cop0.4`, which loads EPC into the PC and restores nothing else. -/
def State.exceptionReturn (s : State) : State := s.retireWrite pcNum s.epc

end Sys2Proof.Machine
end

