-- ==== Sys2Proof/Machine/Bus.lean ====
section
/-! DEFINITION. The device bus (R61 to R68): the first attached device whose range holds the address
owns it, each access is one device call, an unowned read is open bus and an unowned write is dropped;
and the port dispatcher, which no instruction reaches (R66, R67). -/

namespace Sys2Proof.Machine

/-! ### Memory-mapped devices -/

/-- `start <= pa < stop` (R62). A device whose range is empty owns nothing (I29). -/
def MemDevice.owns (d : MemDevice) (pa : Word) : Bool :=
  decide (d.start ≤ pa.toNat) && decide (pa.toNat < d.stop)

/-- How many bytes a device's range holds. -/
def MemDevice.size (d : MemDevice) : Nat := d.stop - d.start

/-- The local address of a physical address, `(pa - start) mod 2^32` (R62). -/
def MemDevice.localAddr (d : MemDevice) (pa : Word) : Word := BitVec.ofNat 32 (pa.toNat - d.start)

/-- The device's `read(local_addr, size)` (R61): its answer, and the device after the call. -/
def MemDevice.read (d : MemDevice) (a : Word) (sz : SizeCode) : Word × MemDevice :=
  match d.body with
  | .ram cells => (ramRead d.size cells a.toNat sz, d)
  | .external id calls =>
    (Config.memDeviceRead id calls a sz, { d with body := .external id (.read a sz :: calls) })

/-- The device's `write(local_addr, value, size)` (R61): the device after the call. -/
def MemDevice.write (d : MemDevice) (a v : Word) (sz : SizeCode) : MemDevice :=
  match d.body with
  | .ram cells => { d with body := .ram (ramWrite d.size cells a.toNat v sz) }
  | .external id calls => { d with body := .external id (.write a v sz :: calls) }

/-- What an access of a size code keeps of a 32-bit value: byte and short truncate it, long and execute
do not (R10, R63). -/
def sizeMask (v : Word) : SizeCode → Word
  | .byte => v &&& 0x000000FF#32
  | .short => v &&& 0x0000FFFF#32
  | .long => v
  | .execute => v

/-- The owner of a physical address: the first device in registration order (R62). -/
def ownerOf (ds : List MemDevice) (pa : Word) : Option MemDevice := ds.find? fun d => d.owns pa

/-- `BusRead(pa, sz)` over the attached devices (R63, R64): the value, and the devices after the call. -/
def devicesRead : List MemDevice → Word → SizeCode → Word × List MemDevice
  | [], _, _ => (Config.openBus, [])
  | d :: ds, pa, sz =>
    if d.owns pa then
      let r := d.read (d.localAddr pa) sz
      (sizeMask r.1 sz, r.2 :: ds)
    else
      let r := devicesRead ds pa sz
      (r.1, d :: r.2)

/-- `BusWrite(pa, sz, v)` over the attached devices (R65); `v` is truncated to the access width (R10). -/
def devicesWrite : List MemDevice → Word → SizeCode → Word → List MemDevice
  | [], _, _, _ => []
  | d :: ds, pa, sz, v =>
    if d.owns pa then d.write (d.localAddr pa) (sizeMask v sz) sz :: ds
    else d :: devicesWrite ds pa sz v

/-- `BusRead(pa, sz)` (R63, R64): the value, and the state after the one device call. -/
def State.busRead (s : State) (pa : Word) (sz : SizeCode) : Word × State :=
  let r := devicesRead s.devices pa sz
  (r.1, s.setDevices r.2)

/-- `BusWrite(pa, sz, v)` (R65). -/
def State.busWrite (s : State) (pa : Word) (sz : SizeCode) (v : Word) : State :=
  s.setDevices (devicesWrite s.devices pa sz v)

/-- Look at one byte of memory without a device call: the byte a RAM holds at a physical address it
owns, none where no RAM owns it. No step uses it; statements and tests read memory through it. -/
def State.peekByte (s : State) (pa : Word) : Option Byte :=
  match ownerOf s.devices pa with
  | none => none
  | some d =>
    match d.body with
    | .ram cells => some (ramByte d.size cells (pa.toNat - d.start))
    | .external _ _ => none

/-! ### Port-mapped devices -/

/-- Dispatch is by exact port-number membership (R66). -/
def PortDevice.owns (d : PortDevice) (port : BitVec 16) : Bool := d.ports.contains port

/-- The device's `read(port, size)` (R66). -/
def PortDevice.read (d : PortDevice) (port : BitVec 16) (sz : SizeCode) : Word × PortDevice :=
  (Config.portDeviceRead d.id d.calls port sz, { d with calls := .read port sz :: d.calls })

/-- The device's `write(port, value, size)` (R66). -/
def PortDevice.write (d : PortDevice) (port : BitVec 16) (v : Word) (sz : SizeCode) : PortDevice :=
  { d with calls := .write port v sz :: d.calls }

/-- A port read: the first device that has the port answers, else 0xFFFFFFFF (R66, D22). The device's
answer is masked by the size as R63 masks a memory-mapped device's (R16, I19); the value of an unowned port
is not, as on the memory bus (R64, R66). -/
def portsRead : List PortDevice → BitVec 16 → SizeCode → Word × List PortDevice
  | [], _, _ => (Config.openBus, [])
  | d :: ds, port, sz =>
    if d.owns port then
      let r := d.read port sz
      (sizeMask r.1 sz, r.2 :: ds)
    else
      let r := portsRead ds port sz
      (r.1, d :: r.2)

/-- A port write: to the first device that has the port, else dropped (R66, D22). DESIGN CHOICE (log entry
4), unsafe for a claim about the value a port device is given: R66 and D22 do not say whether a byte or
short value is truncated to its size, and the model passes it whole. -/
def portsWrite : List PortDevice → BitVec 16 → SizeCode → Word → List PortDevice
  | [], _, _, _ => []
  | d :: ds, port, sz, v =>
    if d.owns port then d.write port v sz :: ds else d :: portsWrite ds port sz v

/-- The bus block's port read (R66). No instruction calls it (R67). -/
def State.portRead (s : State) (port : BitVec 16) (sz : SizeCode) : Word × State :=
  let r := portsRead s.ports port sz
  (r.1, s.setPorts r.2)

/-- The bus block's port write (R66), the value passed whole (log entry 4). No instruction calls it
(R67). -/
def State.portWrite (s : State) (port : BitVec 16) (sz : SizeCode) (v : Word) : State :=
  s.setPorts (portsWrite s.ports port sz v)

end Sys2Proof.Machine
end

