-- ==== Sys2Proof/Machine/Mmu.lean ====
section
/-! DEFINITION. The MMU: first-match translation through the active map, the protection checks and the
alignment checks (R52 to R58). Translation reads the tables as they are and changes nothing (R79). -/

namespace Sys2Proof.Machine

/-- `ATTR.R`, `ATTR.W` and `ATTR.X`: bits 0, 1 and 2 (R46). -/
def MapEntry.permits (e : MapEntry) : AccessType → Bool
  | .read => e.attr.getLsbD 0
  | .write => e.attr.getLsbD 1
  | .exec => e.attr.getLsbD 2

/-- An entry matches `va` when `VBASE <= va < VBASE + SIZE`, computed unbounded (R54). -/
def MapEntry.covers (e : MapEntry) (va : Word) : Bool :=
  decide (e.vbase.toNat ≤ va.toNat) && decide (va.toNat < e.vbase.toNat + e.size.toNat)

/-- The physical address through an entry, modulo 2^32 (R52, R54). -/
def MapEntry.physical (e : MapEntry) (va : Word) : Word := e.pbase + (va - e.vbase)

/-- The protection fault of an access type (R55). -/
def protectionCause : AccessType → Cause
  | .read => .protRead
  | .write => .protWrite
  | .exec => .protExec

/-- `maps[m]` (R46). -/
def State.map (s : State) (m : BitVec 2) : Vector MapEntry 32 := s.maps.get m.toFin

/-- `maps[MMUCR.AMI]`, the only table consulted for translation (R48). -/
def State.activeMap (s : State) : Vector MapEntry 32 := s.map (mmuAmi s.mmucr)

/-- The first half of `Translate` (R52): the physical address, or the mapping or protection fault. With
EN clear the virtual address passes through (R53). -/
def State.mapAddress (s : State) (va : Word) (acc : AccessType) : Except Cause Word :=
  if mmuEn s.mmucr then
    match s.activeMap.toList.find? (fun e => e.covers va) with
    | none => .error .noMapping
    | some e => if e.permits acc then .ok (e.physical va) else .error (protectionCause acc)
  else .ok va

/-- The alignment fault of a physical address, if any: every fetch is checked, short and long data
accesses only under XMA, bytes never (R52, R56, R57). -/
def alignmentFault (xma : Bool) (pa : Word) : SizeCode → Option Cause
  | .byte => none
  | .short => if xma && decide (pa.extractLsb' 0 1 ≠ 0#1) then some .dataMisalign else none
  | .long => if xma && decide (pa.extractLsb' 0 2 ≠ 0#2) then some .dataMisalign else none
  | .execute => if pa.extractLsb' 0 2 ≠ 0#2 then some .fetchMisalign else none

/-- `Translate(va, acc, sz)` (R52): mapping, then protection, then alignment (R58). -/
def State.translate (s : State) (va : Word) (acc : AccessType) (sz : SizeCode) : Except Cause Word :=
  match s.mapAddress va acc with
  | .error c => .error c
  | .ok pa =>
    match alignmentFault (mmuXma s.mmucr) pa sz with
    | some c => .error c
    | none => .ok pa

end Sys2Proof.Machine
end

