-- ==== Sys2Proof/Machine/Cycle.lean ====
section
/-! DEFINITION. The first half of a cycle (R30): shift the pipeline and fetch at `x[31]`. -/

namespace Sys2Proof.Machine

/-- `pipe[2] <- pipe[1]; pipe[1] <- pipe[0]`; slot 0 keeps its word until the fetch replaces it (R30). -/
def State.shiftPipe (s : State) : State := s.setPipe s.pipe0 s.pipe0 s.pipe1

/-- Replace slot 0. -/
def State.setPipe0 (s : State) (w : Word) : State := s.setPipe w s.pipe1 s.pipe2

/-- `Fetch(x[31])` (R10, R30): on success the word enters slot 0 and the PC advances by 4 modulo 2^32
(R35); on a fault the dispatcher runs, slot 0 takes the placeholder 0 and the PC keeps the handler
address the dispatcher wrote (R59). -/
def State.fetch (s : State) : State :=
  match s.translate s.pc .exec .execute with
  | .ok pa =>
    let r := s.busRead pa .execute
    (r.2.setPipe0 r.1).setPc (s.pc + 4#32)
  | .error c => (s.dispatch c 0#24).setPipe0 0#32

/-- The cycle up to its execute step: the shift, then the fetch (R30). -/
def State.fetchCycle (s : State) : State := s.shiftPipe.fetch

end Sys2Proof.Machine
end

