-- ==== Sys2Proof/Syntax.lean ====
section
/-! DEFINITION. The instructions of HV2, one constructor per row of `spec/opcode_table.json`, and the
operand forms they share. Counts and register selectors that the manual uses as numbers (`sc`, `sh`,
`cnum`, `creg`) are `Nat`; WellFormed.lean bounds them by their fields' widths. -/

namespace Sys2Proof

/-- The sixteen ALU operations, in the order that numbers them 0 to 15 (R101). -/
inductive AluOp where
  | add | sub | mul | mac | div | mod | and | or | xor | lsl | lsr | asr | sextb | sexth | rol | ror
  deriving DecidableEq, Repr

/-- The six predicates of the condition table, in the order that numbers them 1 to 6 (R92, R123). -/
inductive Cond where
  | eq | ne | gt | ge | lt | le
  deriving DecidableEq, Repr

/-- The six addressing modes of group 10000, in the order that numbers them 0 to 5 (R157). `rb` is the
base register, `ri` the index register, `sc` the 5-bit literal scale or shift amount, `imm10` the
10-bit unsigned offset. -/
inductive AddrMode where
  | scaledAdd (rb ri : RegNum) (sc : Nat)
  | scaledSub (rb ri : RegNum) (sc : Nat)
  | shiftedAdd (rb ri : RegNum) (sc : Nat)
  | shiftedSub (rb ri : RegNum) (sc : Nat)
  | immAdd (rb : RegNum) (imm10 : BitVec 10)
  | immSub (rb : RegNum) (imm10 : BitVec 10)
  deriving DecidableEq, Repr

/-- An instruction of HV2: one constructor per row of the opcode table. A flag `s` asks for sign
extension of the immediate, `l` for the link write, `r` for the relative target. -/
inductive Instr where
  /-- `add`, register form (R102, R106). -/
  | add (rd rs0 rs1 : RegNum)
  /-- `add.imm`, immediate form (R103, R106). -/
  | addImm (rd : RegNum) (imm16 : BitVec 16) (s : Bool)
  /-- `sub`, register form (R102, R107). -/
  | sub (rd rs0 rs1 : RegNum)
  /-- `sub.imm`, immediate form (R103, R107). -/
  | subImm (rd : RegNum) (imm16 : BitVec 16) (s : Bool)
  /-- `mul`, register form (R102, R108). -/
  | mul (rd rs0 rs1 : RegNum)
  /-- `mul.imm`, immediate form (R103, R108). -/
  | mulImm (rd : RegNum) (imm16 : BitVec 16) (s : Bool)
  /-- `mac`, register form (R102, R109). -/
  | mac (rd rs0 rs1 : RegNum)
  /-- `mac.imm`, immediate form (R103, R109). -/
  | macImm (rd : RegNum) (imm16 : BitVec 16) (s : Bool)
  /-- `div`, register form (R102, R110). -/
  | div (rd rs0 rs1 : RegNum)
  /-- `div.imm`, immediate form (R103, R110). -/
  | divImm (rd : RegNum) (imm16 : BitVec 16) (s : Bool)
  /-- `mod`, register form (R102, R111). -/
  | mod (rd rs0 rs1 : RegNum)
  /-- `mod.imm`, immediate form (R103, R111). -/
  | modImm (rd : RegNum) (imm16 : BitVec 16) (s : Bool)
  /-- `and`, register form (R102, R112). -/
  | and (rd rs0 rs1 : RegNum)
  /-- `and.imm`, immediate form (R103, R112). -/
  | andImm (rd : RegNum) (imm16 : BitVec 16) (s : Bool)
  /-- `or`, register form (R102, R113). -/
  | or (rd rs0 rs1 : RegNum)
  /-- `or.imm`, immediate form (R103, R113). -/
  | orImm (rd : RegNum) (imm16 : BitVec 16) (s : Bool)
  /-- `xor`, register form (R102, R114). -/
  | xor (rd rs0 rs1 : RegNum)
  /-- `xor.imm`, immediate form (R103, R114). -/
  | xorImm (rd : RegNum) (imm16 : BitVec 16) (s : Bool)
  /-- `lsl`, register form (R102, R115). -/
  | lsl (rd rs0 rs1 : RegNum)
  /-- `lsl.imm`, immediate form (R103, R115). -/
  | lslImm (rd : RegNum) (imm16 : BitVec 16) (s : Bool)
  /-- `lsr`, register form (R102, R116). -/
  | lsr (rd rs0 rs1 : RegNum)
  /-- `lsr.imm`, immediate form (R103, R116). -/
  | lsrImm (rd : RegNum) (imm16 : BitVec 16) (s : Bool)
  /-- `asr`, register form (R102, R117). -/
  | asr (rd rs0 rs1 : RegNum)
  /-- `asr.imm`, immediate form (R103, R117). -/
  | asrImm (rd : RegNum) (imm16 : BitVec 16) (s : Bool)
  /-- `sextb`, register form (R102, R118). -/
  | sextb (rd rs0 rs1 : RegNum)
  /-- `sextb.imm`, immediate form (R103, R118). -/
  | sextbImm (rd : RegNum) (imm16 : BitVec 16) (s : Bool)
  /-- `sexth`, register form (R102, R119). -/
  | sexth (rd rs0 rs1 : RegNum)
  /-- `sexth.imm`, immediate form (R103, R119). -/
  | sexthImm (rd : RegNum) (imm16 : BitVec 16) (s : Bool)
  /-- `rol`, register form (R102, R120). -/
  | rol (rd rs0 rs1 : RegNum)
  /-- `rol.imm`, immediate form (R103, R120). -/
  | rolImm (rd : RegNum) (imm16 : BitVec 16) (s : Bool)
  /-- `ror`, register form (R102, R121). -/
  | ror (rd rs0 rs1 : RegNum)
  /-- `ror.imm`, immediate form (R103, R121). -/
  | rorImm (rd : RegNum) (imm16 : BitVec 16) (s : Bool)
  /-- `beq`, signed offset (R127, R128). -/
  | beq (ra rb : RegNum) (imm16 : BitVec 16) (l : Bool)
  /-- `beq.u`, unsigned offset (R127, R128). -/
  | beqU (ra rb : RegNum) (imm16 : BitVec 16) (l : Bool)
  /-- `bne`, signed offset (R127, R129). -/
  | bne (ra rb : RegNum) (imm16 : BitVec 16) (l : Bool)
  /-- `bne.u`, unsigned offset (R127, R129). -/
  | bneU (ra rb : RegNum) (imm16 : BitVec 16) (l : Bool)
  /-- `bgt`, signed offset (R127, R130). -/
  | bgt (ra rb : RegNum) (imm16 : BitVec 16) (l : Bool)
  /-- `bgt.u`, unsigned offset (R127, R130). -/
  | bgtU (ra rb : RegNum) (imm16 : BitVec 16) (l : Bool)
  /-- `bge`, signed offset (R127, R131). -/
  | bge (ra rb : RegNum) (imm16 : BitVec 16) (l : Bool)
  /-- `bge.u`, unsigned offset (R127, R131). -/
  | bgeU (ra rb : RegNum) (imm16 : BitVec 16) (l : Bool)
  /-- `blt`, signed offset (R127, R132). -/
  | blt (ra rb : RegNum) (imm16 : BitVec 16) (l : Bool)
  /-- `blt.u`, unsigned offset (R127, R132). -/
  | bltU (ra rb : RegNum) (imm16 : BitVec 16) (l : Bool)
  /-- `ble`, signed offset (R127, R133). -/
  | ble (ra rb : RegNum) (imm16 : BitVec 16) (l : Bool)
  /-- `ble.u`, unsigned offset (R127, R133). -/
  | bleU (ra rb : RegNum) (imm16 : BitVec 16) (l : Bool)
  /-- `jeq`, branch through a register (R134, R136). -/
  | jeq (ra rb rt : RegNum) (r l : Bool)
  /-- `jne`, branch through a register (R134, R137). -/
  | jne (ra rb rt : RegNum) (r l : Bool)
  /-- `jgt`, branch through a register (R134, R138). -/
  | jgt (ra rb rt : RegNum) (r l : Bool)
  /-- `jge`, branch through a register (R134, R139). -/
  | jge (ra rb rt : RegNum) (r l : Bool)
  /-- `jlt`, branch through a register (R134, R140). -/
  | jlt (ra rb rt : RegNum) (r l : Bool)
  /-- `jle`, branch through a register (R134, R141). -/
  | jle (ra rb rt : RegNum) (r l : Bool)
  /-- `mtcr`, move to coprocessor register (R145). -/
  | mtcr (rd : RegNum) (creg cnum : Nat)
  /-- `mfcr`, move from coprocessor register (R146). -/
  | mfcr (rd : RegNum) (creg cnum : Nat)
  /-- `syscall` (R149). -/
  | syscall (imm24 : BitVec 24)
  /-- `tpl0` (R150). -/
  | tpl0 (imm24 : BitVec 24)
  /-- `tpl1` (R151). -/
  | tpl1 (imm24 : BitVec 24)
  /-- `tpl2` (R152). -/
  | tpl2 (imm24 : BitVec 24)
  /-- `tpl3` (R153). -/
  | tpl3 (imm24 : BitVec 24)
  /-- `debug` (R154). -/
  | debug (imm24 : BitVec 24)
  /-- `swe` (R155). -/
  | swe (imm24 : BitVec 24)
  /-- `ld.b`, load byte (R162). -/
  | ldB (rd : RegNum) (addr : AddrMode)
  /-- `ld.h`, load short (R163). -/
  | ldH (rd : RegNum) (addr : AddrMode)
  /-- `ld.w`, load long (R164). -/
  | ldW (rd : RegNum) (addr : AddrMode)
  /-- `st.b`, store byte (R165). -/
  | stB (rd : RegNum) (addr : AddrMode)
  /-- `st.h`, store short (R166). -/
  | stH (rd : RegNum) (addr : AddrMode)
  /-- `st.w`, store long (R167). -/
  | stW (rd : RegNum) (addr : AddrMode)
  /-- `lea.b`, load effective address (R168). -/
  | leaB (rd : RegNum) (addr : AddrMode)
  /-- `lea.h`, load effective address (R168). -/
  | leaH (rd : RegNum) (addr : AddrMode)
  /-- `lea.w`, load effective address (R168). -/
  | leaW (rd : RegNum) (addr : AddrMode)
  /-- `li`, load immediate (R169). -/
  | li (rd : RegNum) (imm16 : BitVec 16) (s : Bool) (sh : Nat)
  /-- `seq`, set if condition (R171, R172). -/
  | seq (rd rs : RegNum) (imm16 : BitVec 16) (s : Bool)
  /-- `sne`, set if condition (R171, R173). -/
  | sne (rd rs : RegNum) (imm16 : BitVec 16) (s : Bool)
  /-- `sgt`, set if condition (R171, R174). -/
  | sgt (rd rs : RegNum) (imm16 : BitVec 16) (s : Bool)
  /-- `sge`, set if condition (R171, R175). -/
  | sge (rd rs : RegNum) (imm16 : BitVec 16) (s : Bool)
  /-- `slt`, set if condition (R171, R176). -/
  | slt (rd rs : RegNum) (imm16 : BitVec 16) (s : Bool)
  /-- `sle`, set if condition (R171, R177). -/
  | sle (rd rs : RegNum) (imm16 : BitVec 16) (s : Bool)
  /-- `cpi0`, any word of group 11110 (R95, R147). -/
  | cpi0
  /-- `cpi1`, any word of group 11111 (R95, R147). -/
  | cpi1
  deriving DecidableEq, Repr

end Sys2Proof
end

