-- ==== Sys2Proof/Machine/Operands.lean ====
section
/-! DEFINITION. How operands are formed: the 16-bit immediates with their extension (R93), the shifted
immediate of `li` (R169), branch offsets and targets (R127, R134), and the effective address of the six
addressing modes (R157, R158). -/

namespace Sys2Proof.Machine

/-- A 16-bit immediate as a word: `sext_32` when `s` is set, else `zext_32` (R8, R93). -/
def extendImm16 (imm16 : BitVec 16) (s : Bool) : Word :=
  if s then imm16.signExtend 32 else imm16.setWidth 32

/-- The value of `li`: the extended immediate shifted left by `sh`, modulo 2^32 (R169). -/
def loadImmValue (imm16 : BitVec 16) (s : Bool) (sh : Nat) : Word := extendImm16 imm16 s <<< sh

/-- The target of a branch-immediate, `(x[31] + off) mod 2^32`; the offset is sign-extended when
`w[31] = 0` and zero-extended when `w[31] = 1` (`u`), a byte offset, not scaled (R127). -/
def branchImmTarget (u : Bool) (imm16 : BitVec 16) (s : State) : Word :=
  s.pc + extendImm16 imm16 (!u)

/-- The target of a branch-register: `x[31] + x[rt]` when `r` is set, else `x[rt]` (R134). -/
def branchRegTarget (rt : RegNum) (r : Bool) (s : State) : Word :=
  if r then s.pc + s.reg rt else s.reg rt

/-- The effective address `EA(w)`, modulo 2^32 in every mode; `sc` multiplies or shifts as a literal
(R157, R158). -/
def State.effectiveAddress (s : State) : AddrMode → Word
  | .scaledAdd rb ri sc => s.reg rb + s.reg ri * BitVec.ofNat 32 sc
  | .scaledSub rb ri sc => s.reg rb - s.reg ri * BitVec.ofNat 32 sc
  | .shiftedAdd rb ri sc => s.reg rb + s.reg ri <<< sc
  | .shiftedSub rb ri sc => s.reg rb - s.reg ri <<< sc
  | .immAdd rb imm10 => s.reg rb + imm10.setWidth 32
  | .immSub rb imm10 => s.reg rb - imm10.setWidth 32

end Sys2Proof.Machine
end

