-- ==== Sys2Proof/Machine/Alu.lean ====
section
/-! DEFINITION. The ALU instructions of group 00000: sixteen operations, each in a register form and an
immediate form (R101 to R122). -/

namespace Sys2Proof.Machine

/-- A shift or rotate amount: the operand modulo 32 (R115 to R117, R120, R121). -/
def shiftAmount (b : Word) : Nat := b.toNat % 32

/-- `a` rotated left by `n` below 32 (R120). -/
def rotateLeft (a : Word) (n : Nat) : Word := if n = 0 then a else (a <<< n) ||| (a >>> (32 - n))

/-- `a` rotated right by `n` below 32 (R121). -/
def rotateRight (a : Word) (n : Nat) : Word := if n = 0 then a else (a >>> n) ||| (a <<< (32 - n))

/-- `f(a, b, d)` of R101, modulo 2^32; none where the operation raises ARITHMETIC, which only `div` and
`mod` by zero do (R110, R111, R122). -/
def aluResult (op : AluOp) (a b d : Word) : Option Word :=
  match op with
  | .add => some (a + b)
  | .sub => some (a - b)
  | .mul => some (a * b)
  | .mac => some (d + a * b)
  | .div => if b = 0#32 then none else some (a / b)
  | .mod => if b = 0#32 then none else some (a % b)
  | .and => some (a &&& b)
  | .or => some (a ||| b)
  | .xor => some (a ^^^ b)
  | .lsl => some (a <<< shiftAmount b)
  | .lsr => some (a >>> shiftAmount b)
  | .asr => some (a.sshiftRight (shiftAmount b))
  | .sextb => some ((a.extractLsb' 0 8).signExtend 32)
  | .sexth => some ((a.extractLsb' 0 16).signExtend 32)
  | .rol => some (rotateLeft a (shiftAmount b))
  | .ror => some (rotateRight a (shiftAmount b))

/-- Finish an ALU instruction: write the one result (R104), or raise ARITHMETIC with `x[rd]` unchanged
(R110, R111). -/
def finishAlu (rd : RegNum) (result : Option Word) (s : State) : Host.Outcome State Fault Refusal :=
  match result with
  | some v => .next (s.retireWrite rd v)
  | none => .next (s.retireRaise .arithmetic 0#24)

/-- Register form: `a = x[rs0]`, `b = x[rs1]`, `d = x[rd]`, all read before the write (R102). -/
def aluRegForm (op : AluOp) (rd rs0 rs1 : RegNum) (s : State) : Host.Outcome State Fault Refusal :=
  finishAlu rd (aluResult op (s.reg rs0) (s.reg rs1) (s.reg rd)) s

/-- Immediate form, two-address: `a = d = x[rd]`, `b` the extended immediate (R103). -/
def aluImmForm (op : AluOp) (rd : RegNum) (imm16 : BitVec 16) (sx : Bool) (s : State) :
    Host.Outcome State Fault Refusal :=
  finishAlu rd (aluResult op (s.reg rd) (extendImm16 imm16 sx) (s.reg rd)) s

/-- `add rd, rs0, rs1` (R106). -/
def execAdd (rd rs0 rs1 : RegNum) (s : State) : Host.Outcome State Fault Refusal :=
  aluRegForm .add rd rs0 rs1 s

/-- `add.z` and `add.s rd, #imm16` (R106). -/
def execAddImm (rd : RegNum) (imm16 : BitVec 16) (sx : Bool) (s : State) :
    Host.Outcome State Fault Refusal :=
  aluImmForm .add rd imm16 sx s

/-- `sub rd, rs0, rs1` (R107). -/
def execSub (rd rs0 rs1 : RegNum) (s : State) : Host.Outcome State Fault Refusal :=
  aluRegForm .sub rd rs0 rs1 s

/-- `sub.z` and `sub.s rd, #imm16` (R107). -/
def execSubImm (rd : RegNum) (imm16 : BitVec 16) (sx : Bool) (s : State) :
    Host.Outcome State Fault Refusal :=
  aluImmForm .sub rd imm16 sx s

/-- `mul rd, rs0, rs1` (R108). -/
def execMul (rd rs0 rs1 : RegNum) (s : State) : Host.Outcome State Fault Refusal :=
  aluRegForm .mul rd rs0 rs1 s

/-- `mul.z` and `mul.s rd, #imm16` (R108). -/
def execMulImm (rd : RegNum) (imm16 : BitVec 16) (sx : Bool) (s : State) :
    Host.Outcome State Fault Refusal :=
  aluImmForm .mul rd imm16 sx s

/-- `mac rd, rs0, rs1` (R109). -/
def execMac (rd rs0 rs1 : RegNum) (s : State) : Host.Outcome State Fault Refusal :=
  aluRegForm .mac rd rs0 rs1 s

/-- `mac.z` and `mac.s rd, #imm16` (R109). -/
def execMacImm (rd : RegNum) (imm16 : BitVec 16) (sx : Bool) (s : State) :
    Host.Outcome State Fault Refusal :=
  aluImmForm .mac rd imm16 sx s

/-- `div rd, rs0, rs1` (R110). -/
def execDiv (rd rs0 rs1 : RegNum) (s : State) : Host.Outcome State Fault Refusal :=
  aluRegForm .div rd rs0 rs1 s

/-- `div.z` and `div.s rd, #imm16` (R110). -/
def execDivImm (rd : RegNum) (imm16 : BitVec 16) (sx : Bool) (s : State) :
    Host.Outcome State Fault Refusal :=
  aluImmForm .div rd imm16 sx s

/-- `mod rd, rs0, rs1` (R111). -/
def execMod (rd rs0 rs1 : RegNum) (s : State) : Host.Outcome State Fault Refusal :=
  aluRegForm .mod rd rs0 rs1 s

/-- `mod.z` and `mod.s rd, #imm16` (R111). -/
def execModImm (rd : RegNum) (imm16 : BitVec 16) (sx : Bool) (s : State) :
    Host.Outcome State Fault Refusal :=
  aluImmForm .mod rd imm16 sx s

/-- `and rd, rs0, rs1` (R112). -/
def execAnd (rd rs0 rs1 : RegNum) (s : State) : Host.Outcome State Fault Refusal :=
  aluRegForm .and rd rs0 rs1 s

/-- `and.z` and `and.s rd, #imm16` (R112). -/
def execAndImm (rd : RegNum) (imm16 : BitVec 16) (sx : Bool) (s : State) :
    Host.Outcome State Fault Refusal :=
  aluImmForm .and rd imm16 sx s

/-- `or rd, rs0, rs1` (R113). -/
def execOr (rd rs0 rs1 : RegNum) (s : State) : Host.Outcome State Fault Refusal :=
  aluRegForm .or rd rs0 rs1 s

/-- `or.z` and `or.s rd, #imm16` (R113). -/
def execOrImm (rd : RegNum) (imm16 : BitVec 16) (sx : Bool) (s : State) :
    Host.Outcome State Fault Refusal :=
  aluImmForm .or rd imm16 sx s

/-- `xor rd, rs0, rs1` (R114). -/
def execXor (rd rs0 rs1 : RegNum) (s : State) : Host.Outcome State Fault Refusal :=
  aluRegForm .xor rd rs0 rs1 s

/-- `xor.z` and `xor.s rd, #imm16` (R114). -/
def execXorImm (rd : RegNum) (imm16 : BitVec 16) (sx : Bool) (s : State) :
    Host.Outcome State Fault Refusal :=
  aluImmForm .xor rd imm16 sx s

/-- `lsl rd, rs0, rs1` (R115). -/
def execLsl (rd rs0 rs1 : RegNum) (s : State) : Host.Outcome State Fault Refusal :=
  aluRegForm .lsl rd rs0 rs1 s

/-- `lsl.z` and `lsl.s rd, #imm16` (R115). -/
def execLslImm (rd : RegNum) (imm16 : BitVec 16) (sx : Bool) (s : State) :
    Host.Outcome State Fault Refusal :=
  aluImmForm .lsl rd imm16 sx s

/-- `lsr rd, rs0, rs1` (R116). -/
def execLsr (rd rs0 rs1 : RegNum) (s : State) : Host.Outcome State Fault Refusal :=
  aluRegForm .lsr rd rs0 rs1 s

/-- `lsr.z` and `lsr.s rd, #imm16` (R116). -/
def execLsrImm (rd : RegNum) (imm16 : BitVec 16) (sx : Bool) (s : State) :
    Host.Outcome State Fault Refusal :=
  aluImmForm .lsr rd imm16 sx s

/-- `asr rd, rs0, rs1` (R117). -/
def execAsr (rd rs0 rs1 : RegNum) (s : State) : Host.Outcome State Fault Refusal :=
  aluRegForm .asr rd rs0 rs1 s

/-- `asr.z` and `asr.s rd, #imm16` (R117). -/
def execAsrImm (rd : RegNum) (imm16 : BitVec 16) (sx : Bool) (s : State) :
    Host.Outcome State Fault Refusal :=
  aluImmForm .asr rd imm16 sx s

/-- `sextb rd, rs0, rs1` (R118). -/
def execSextb (rd rs0 rs1 : RegNum) (s : State) : Host.Outcome State Fault Refusal :=
  aluRegForm .sextb rd rs0 rs1 s

/-- `sextb.z` and `sextb.s rd, #imm16` (R118). -/
def execSextbImm (rd : RegNum) (imm16 : BitVec 16) (sx : Bool) (s : State) :
    Host.Outcome State Fault Refusal :=
  aluImmForm .sextb rd imm16 sx s

/-- `sexth rd, rs0, rs1` (R119). -/
def execSexth (rd rs0 rs1 : RegNum) (s : State) : Host.Outcome State Fault Refusal :=
  aluRegForm .sexth rd rs0 rs1 s

/-- `sexth.z` and `sexth.s rd, #imm16` (R119). -/
def execSexthImm (rd : RegNum) (imm16 : BitVec 16) (sx : Bool) (s : State) :
    Host.Outcome State Fault Refusal :=
  aluImmForm .sexth rd imm16 sx s

/-- `rol rd, rs0, rs1` (R120). -/
def execRol (rd rs0 rs1 : RegNum) (s : State) : Host.Outcome State Fault Refusal :=
  aluRegForm .rol rd rs0 rs1 s

/-- `rol.z` and `rol.s rd, #imm16` (R120). -/
def execRolImm (rd : RegNum) (imm16 : BitVec 16) (sx : Bool) (s : State) :
    Host.Outcome State Fault Refusal :=
  aluImmForm .rol rd imm16 sx s

/-- `ror rd, rs0, rs1` (R121). -/
def execRor (rd rs0 rs1 : RegNum) (s : State) : Host.Outcome State Fault Refusal :=
  aluRegForm .ror rd rs0 rs1 s

/-- `ror.z` and `ror.s rd, #imm16` (R121). -/
def execRorImm (rd : RegNum) (imm16 : BitVec 16) (sx : Bool) (s : State) :
    Host.Outcome State Fault Refusal :=
  aluImmForm .ror rd imm16 sx s

end Sys2Proof.Machine
end

