-- ==== Sys2Proof/Machine/Flags.lean ====
section
/-! DEFINITION. The core has no status flags, condition codes or predicate registers (R26): no
instruction writes a flag. What stands in their place is the condition table (R123), computed from two
values when it is needed, by branches and by set-if-condition. -/

namespace Sys2Proof.Machine

/-- The condition table: six predicates over two unsigned 32-bit values, compared as raw bit patterns;
there is no signed comparison (R123). -/
def condHolds : Cond → (left right : Word) → Bool
  | .eq, left, right => decide (left = right)
  | .ne, left, right => decide (left ≠ right)
  | .gt, left, right => decide (left.toNat > right.toNat)
  | .ge, left, right => decide (left.toNat ≥ right.toNat)
  | .lt, left, right => decide (left.toNat < right.toNat)
  | .le, left, right => decide (left.toNat ≤ right.toNat)

end Sys2Proof.Machine
end

