-- ==== Sys2Proof/Machine/Branch.lean ====
section
/-! DEFINITION. Branch-immediate (twelve groups) and branch-register (group 01101): R123 to R141. -/

namespace Sys2Proof.Machine

/-- The order of effects common to every branch (R125): the condition; if untaken, no write and no
flush; else the target from the old registers, the link write, the PC, and the end of a taken branch. -/
def branchWhen (c : Cond) (ra rb : RegNum) (target : Word) (l : Bool) (s : State) :
    Host.Outcome State Fault Refusal :=
  if condHolds c (s.reg ra) (s.reg rb) then
    .next (((if l then s.setReg linkNum s.pc else s).setPc target).endOfInstruction true)
  else .next s.retirePlain

/-- Branch-immediate; `u` is `w[31]` (R127). -/
def branchImmForm (c : Cond) (u : Bool) (ra rb : RegNum) (imm16 : BitVec 16) (l : Bool) (s : State) :
    Host.Outcome State Fault Refusal :=
  branchWhen c ra rb (branchImmTarget u imm16 s) l s

/-- Branch-register (R134). -/
def branchRegForm (c : Cond) (ra rb rt : RegNum) (r l : Bool) (s : State) :
    Host.Outcome State Fault Refusal :=
  branchWhen c ra rb (branchRegTarget rt r s) l s

/-- `beq` and `beql` (R128). -/
def execBeq (ra rb : RegNum) (imm16 : BitVec 16) (l : Bool) (s : State) :
    Host.Outcome State Fault Refusal :=
  branchImmForm .eq false ra rb imm16 l s

/-- `beq.u` and `beql.u` (R128). -/
def execBeqU (ra rb : RegNum) (imm16 : BitVec 16) (l : Bool) (s : State) :
    Host.Outcome State Fault Refusal :=
  branchImmForm .eq true ra rb imm16 l s

/-- `bne` and `bnel` (R129). -/
def execBne (ra rb : RegNum) (imm16 : BitVec 16) (l : Bool) (s : State) :
    Host.Outcome State Fault Refusal :=
  branchImmForm .ne false ra rb imm16 l s

/-- `bne.u` and `bnel.u` (R129). -/
def execBneU (ra rb : RegNum) (imm16 : BitVec 16) (l : Bool) (s : State) :
    Host.Outcome State Fault Refusal :=
  branchImmForm .ne true ra rb imm16 l s

/-- `bgt` and `bgtl` (R130). -/
def execBgt (ra rb : RegNum) (imm16 : BitVec 16) (l : Bool) (s : State) :
    Host.Outcome State Fault Refusal :=
  branchImmForm .gt false ra rb imm16 l s

/-- `bgt.u` and `bgtl.u` (R130). -/
def execBgtU (ra rb : RegNum) (imm16 : BitVec 16) (l : Bool) (s : State) :
    Host.Outcome State Fault Refusal :=
  branchImmForm .gt true ra rb imm16 l s

/-- `bge` and `bgel` (R131). -/
def execBge (ra rb : RegNum) (imm16 : BitVec 16) (l : Bool) (s : State) :
    Host.Outcome State Fault Refusal :=
  branchImmForm .ge false ra rb imm16 l s

/-- `bge.u` and `bgel.u` (R131). -/
def execBgeU (ra rb : RegNum) (imm16 : BitVec 16) (l : Bool) (s : State) :
    Host.Outcome State Fault Refusal :=
  branchImmForm .ge true ra rb imm16 l s

/-- `blt` and `bltl` (R132). -/
def execBlt (ra rb : RegNum) (imm16 : BitVec 16) (l : Bool) (s : State) :
    Host.Outcome State Fault Refusal :=
  branchImmForm .lt false ra rb imm16 l s

/-- `blt.u` and `bltl.u` (R132). -/
def execBltU (ra rb : RegNum) (imm16 : BitVec 16) (l : Bool) (s : State) :
    Host.Outcome State Fault Refusal :=
  branchImmForm .lt true ra rb imm16 l s

/-- `ble` and `blel` (R133). -/
def execBle (ra rb : RegNum) (imm16 : BitVec 16) (l : Bool) (s : State) :
    Host.Outcome State Fault Refusal :=
  branchImmForm .le false ra rb imm16 l s

/-- `ble.u` and `blel.u` (R133). -/
def execBleU (ra rb : RegNum) (imm16 : BitVec 16) (l : Bool) (s : State) :
    Host.Outcome State Fault Refusal :=
  branchImmForm .le true ra rb imm16 l s

/-- `jeq`, `jeql`, `jeq.r` and `jeql.r` (R136). -/
def execJeq (ra rb rt : RegNum) (r l : Bool) (s : State) : Host.Outcome State Fault Refusal :=
  branchRegForm .eq ra rb rt r l s

/-- `jne`, `jnel`, `jne.r` and `jnel.r` (R137). -/
def execJne (ra rb rt : RegNum) (r l : Bool) (s : State) : Host.Outcome State Fault Refusal :=
  branchRegForm .ne ra rb rt r l s

/-- `jgt`, `jgtl`, `jgt.r` and `jgtl.r` (R138). -/
def execJgt (ra rb rt : RegNum) (r l : Bool) (s : State) : Host.Outcome State Fault Refusal :=
  branchRegForm .gt ra rb rt r l s

/-- `jge`, `jgel`, `jge.r` and `jgel.r` (R139). -/
def execJge (ra rb rt : RegNum) (r l : Bool) (s : State) : Host.Outcome State Fault Refusal :=
  branchRegForm .ge ra rb rt r l s

/-- `jlt`, `jltl`, `jlt.r` and `jltl.r` (R140). -/
def execJlt (ra rb rt : RegNum) (r l : Bool) (s : State) : Host.Outcome State Fault Refusal :=
  branchRegForm .lt ra rb rt r l s

/-- `jle`, `jlel`, `jle.r` and `jlel.r` (R141). -/
def execJle (ra rb rt : RegNum) (r l : Bool) (s : State) : Host.Outcome State Fault Refusal :=
  branchRegForm .le ra rb rt r l s

end Sys2Proof.Machine
end

