-- ==== Sys2Proof/Machine/Coprocessor.lean ====
section
/-! DEFINITION. The coprocessor register resolver (R142) and the exchange instructions `mtcr` and `mfcr`
(R143 to R146). Every cell is readable and writable at every privilege level (R187). -/

namespace Sys2Proof.Machine

/-- The word of a mapping entry that a COP4 register holds (R46, R47). -/
inductive MapField where
  | pbase
  | vbase
  | size
  | attr
  deriving DecidableEq, Repr

/-- A cell of the coprocessor register space (R142): a COP0 register, MMUCR, or a word of an entry of a
mapping table. -/
inductive CopCell where
  | cr0
  | cr1
  | cause
  | handler
  | epc
  | mmucr
  | mapWord (table : BitVec 2) (entry : Fin 32) (field : MapField)
  deriving DecidableEq, Repr

/-- Word `k mod 4` of an entry, in the order PBASE, VBASE, SIZE, ATTR (R46, R47). -/
def mapFieldOf (k : Nat) : MapField :=
  match k % 4 with
  | 0 => .pbase
  | 1 => .vbase
  | 2 => .size
  | _ => .attr

/-- COP0 register `creg`, if there is one (R39, R142). -/
def resolveCop0 : Nat → Option CopCell
  | 0 => some .cr0
  | 1 => some .cr1
  | 2 => some .cause
  | 3 => some .handler
  | 4 => some .epc
  | _ => none

/-- COP4 register `creg`, if there is one: 0 is MMUCR; n from 1 to 128 is word `(n - 1) mod 4` of entry
`(n - 1) div 4` of the table `ami` selects (R47, R142). -/
def resolveCop4 (ami : BitVec 2) : Nat → Option CopCell
  | 0 => some .mmucr
  | n + 1 => if h : n / 4 < 32 then some (.mapWord ami ⟨n / 4, h⟩ (mapFieldOf n)) else none

/-- `Resolve(cnum, creg)`, with AMI read from MMUCR now; only coprocessors 0 and 4 exist (R142). -/
def State.resolve (s : State) (cnum creg : Nat) : Option CopCell :=
  match cnum with
  | 0 => resolveCop0 creg
  | 4 => resolveCop4 (mmuAmi s.mmucr) creg
  | _ => none

/-- A word of a mapping entry (R46). -/
def MapEntry.get (e : MapEntry) : MapField → Word
  | .pbase => e.pbase
  | .vbase => e.vbase
  | .size => e.size
  | .attr => e.attr

/-- A mapping entry with one word replaced (R46). -/
def MapEntry.put (e : MapEntry) (f : MapField) (v : Word) : MapEntry :=
  match f with
  | .pbase => { e with pbase := v }
  | .vbase => { e with vbase := v }
  | .size => { e with size := v }
  | .attr => { e with attr := v }

/-- `maps[table][entry]` (R9, R46). -/
def State.entry (s : State) (table : BitVec 2) (entry : Fin 32) : MapEntry := (s.map table).get entry

/-- `maps[table][entry] <- e`. -/
def State.setEntry (s : State) (table : BitVec 2) (entry : Fin 32) (e : MapEntry) : State :=
  s.setMaps (s.maps.set table.toNat ((s.map table).set entry.val e entry.isLt) table.isLt)

/-- What `mfcr` reads from a cell: every bit as it is stored (R39, R45, R46). -/
def State.readCell (s : State) : CopCell → Word
  | .cr0 => s.cr0
  | .cr1 => s.cr1
  | .cause => s.cause
  | .handler => s.handler
  | .epc => s.epc
  | .mmucr => s.mmucr
  | .mapWord t e f => (s.entry t e).get f

/-- What `mtcr` does to a cell: the whole word is stored, nothing else happens (R143, R145). -/
def State.writeCell (s : State) (c : CopCell) (v : Word) : State :=
  match c with
  | .cr0 => s.setCr0 v
  | .cr1 => s.setCr1 v
  | .cause => s.setCause v
  | .handler => s.setHandler v
  | .epc => s.setEpc v
  | .mmucr => s.setMmucr v
  | .mapWord t e f => s.setEntry t e ((s.entry t e).put f v)

/-- `mtcr copN.M, rd` (R143, R145); a register that does not exist raises INVALID_COP. -/
def execMtcr (rd : RegNum) (creg cnum : Nat) (s : State) : Host.Outcome State Fault Refusal :=
  match s.resolve cnum creg with
  | none => .next (s.retireRaise .invalidCop 0#24)
  | some cell => .next (s.writeCell cell (s.reg rd)).retirePlain

/-- `mfcr rd, copN.M` (R143, R146); a register that does not exist raises INVALID_COP. -/
def execMfcr (rd : RegNum) (creg cnum : Nat) (s : State) : Host.Outcome State Fault Refusal :=
  match s.resolve cnum creg with
  | none => .next (s.retireRaise .invalidCop 0#24)
  | some cell => .next (s.retireWrite rd (s.readCell cell))

end Sys2Proof.Machine
end

