-- ==== Sys2Proof/Machine/LoadImmediate.lean ====
section
/-! DEFINITION. Load-immediate, group 10001 (R169, R170). -/

namespace Sys2Proof.Machine

/-- `li rd, #imm16, sh` and `li.s rd, #imm16, sh` (R169). -/
def execLi (rd : RegNum) (imm16 : BitVec 16) (sx : Bool) (sh : Nat) (s : State) :
    Host.Outcome State Fault Refusal :=
  .next (s.retireWrite rd (loadImmValue imm16 sx sh))

end Sys2Proof.Machine
end

