-- ==== Sys2Proof/Machine/LoadStore.lean ====
section
/-! DEFINITION. Load, store and load-effective-address of group 10000 (R157 to R168). -/

namespace Sys2Proof.Machine

/-- A load: translate for READ, one bus read, write the value the bus returns to `x[rd]` (R159, R161 to
R164). A translation that raises ends it before any device call or register write (R181). -/
def loadForm (sz : SizeCode) (rd : RegNum) (addr : AddrMode) (s : State) :
    Host.Outcome State Fault Refusal :=
  match s.translate (s.effectiveAddress addr) .read sz with
  | .error c => .next (s.retireRaise c 0#24)
  | .ok pa =>
    let r := s.busRead pa sz
    .next (r.2.retireWrite rd r.1)

/-- A store: translate for WRITE, one bus write of the low bits of `x[rd]` (R159, R161, R165 to R167). -/
def storeForm (sz : SizeCode) (rd : RegNum) (addr : AddrMode) (s : State) :
    Host.Outcome State Fault Refusal :=
  match s.translate (s.effectiveAddress addr) .write sz with
  | .error c => .next (s.retireRaise c 0#24)
  | .ok pa => .next (s.busWrite pa sz (s.reg rd)).retirePlain

/-- `lea`: the effective address itself, not translated, no device call (R168). -/
def leaForm (rd : RegNum) (addr : AddrMode) (s : State) : Host.Outcome State Fault Refusal :=
  .next (s.retireWrite rd (s.effectiveAddress addr))

/-- `ld.b rd, [addr]` (R162). -/
def execLdB (rd : RegNum) (addr : AddrMode) (s : State) : Host.Outcome State Fault Refusal :=
  loadForm .byte rd addr s

/-- `ld.h rd, [addr]` (R163). -/
def execLdH (rd : RegNum) (addr : AddrMode) (s : State) : Host.Outcome State Fault Refusal :=
  loadForm .short rd addr s

/-- `ld.w rd, [addr]` (R164). -/
def execLdW (rd : RegNum) (addr : AddrMode) (s : State) : Host.Outcome State Fault Refusal :=
  loadForm .long rd addr s

/-- `st.b rd, [addr]` (R165). -/
def execStB (rd : RegNum) (addr : AddrMode) (s : State) : Host.Outcome State Fault Refusal :=
  storeForm .byte rd addr s

/-- `st.h rd, [addr]` (R166). -/
def execStH (rd : RegNum) (addr : AddrMode) (s : State) : Host.Outcome State Fault Refusal :=
  storeForm .short rd addr s

/-- `st.w rd, [addr]` (R167). -/
def execStW (rd : RegNum) (addr : AddrMode) (s : State) : Host.Outcome State Fault Refusal :=
  storeForm .long rd addr s

/-- `lea.b rd, [addr]` (R168). -/
def execLeaB (rd : RegNum) (addr : AddrMode) (s : State) : Host.Outcome State Fault Refusal :=
  leaForm rd addr s

/-- `lea.h rd, [addr]` (R168). -/
def execLeaH (rd : RegNum) (addr : AddrMode) (s : State) : Host.Outcome State Fault Refusal :=
  leaForm rd addr s

/-- `lea.w rd, [addr]` (R168). -/
def execLeaW (rd : RegNum) (addr : AddrMode) (s : State) : Host.Outcome State Fault Refusal :=
  leaForm rd addr s

end Sys2Proof.Machine
end

