-- ==== Sys2Proof/Machine/SetCondition.lean ====
section
/-! DEFINITION. Set-if-condition-immediate (R171 to R177). -/

namespace Sys2Proof.Machine

/-- `x[rd] <- 1` when the predicate holds of `x[rs]` and the extended immediate, else 0; the comparison
is unsigned either way (R171). -/
def setCondForm (c : Cond) (rd rs : RegNum) (imm16 : BitVec 16) (sx : Bool) (s : State) :
    Host.Outcome State Fault Refusal :=
  .next (s.retireWrite rd (if condHolds c (s.reg rs) (extendImm16 imm16 sx) then 1#32 else 0#32))

/-- `seq` and `seq.s rd, rs, #imm16` (R172). -/
def execSeq (rd rs : RegNum) (imm16 : BitVec 16) (sx : Bool) (s : State) :
    Host.Outcome State Fault Refusal :=
  setCondForm .eq rd rs imm16 sx s

/-- `sne` and `sne.s rd, rs, #imm16` (R173). -/
def execSne (rd rs : RegNum) (imm16 : BitVec 16) (sx : Bool) (s : State) :
    Host.Outcome State Fault Refusal :=
  setCondForm .ne rd rs imm16 sx s

/-- `sgt` and `sgt.s rd, rs, #imm16` (R174). -/
def execSgt (rd rs : RegNum) (imm16 : BitVec 16) (sx : Bool) (s : State) :
    Host.Outcome State Fault Refusal :=
  setCondForm .gt rd rs imm16 sx s

/-- `sge` and `sge.s rd, rs, #imm16` (R175). -/
def execSge (rd rs : RegNum) (imm16 : BitVec 16) (sx : Bool) (s : State) :
    Host.Outcome State Fault Refusal :=
  setCondForm .ge rd rs imm16 sx s

/-- `slt` and `slt.s rd, rs, #imm16` (R176). -/
def execSlt (rd rs : RegNum) (imm16 : BitVec 16) (sx : Bool) (s : State) :
    Host.Outcome State Fault Refusal :=
  setCondForm .lt rd rs imm16 sx s

/-- `sle` and `sle.s rd, rs, #imm16` (R177). -/
def execSle (rd rs : RegNum) (imm16 : BitVec 16) (sx : Bool) (s : State) :
    Host.Outcome State Fault Refusal :=
  setCondForm .le rd rs imm16 sx s

end Sys2Proof.Machine
end

