-- ==== Sys2Proof/WellFormed.lean ====
section
/-! DEFINITION. When an instruction fits its encoding: the operands held as numbers stay within their
fields (R86 `creg`, `cnum`; R88 `sc`; R89 `sh`). Every other operand has its field's width by type. -/

namespace Sys2Proof

/-- `sc`, a 5-bit literal, 0 to 31 (R88, R157). The immediate modes have no `sc`. -/
def AddrMode.wellFormed : AddrMode → Bool
  | .scaledAdd _ _ sc => decide (sc < 32)
  | .scaledSub _ _ sc => decide (sc < 32)
  | .shiftedAdd _ _ sc => decide (sc < 32)
  | .shiftedSub _ _ sc => decide (sc < 32)
  | .immAdd _ _ => true
  | .immSub _ _ => true

/-- A coprocessor register selector: `creg` has 10 bits and `cnum` 5 bits (R5, R86). -/
def copSelectorFits (creg cnum : Nat) : Bool := decide (creg < 1024) && decide (cnum < 32)

/-- The instruction's operands fit the fields of its format. -/
def Instr.wellFormed : Instr → Bool
  | .add _ _ _ => true
  | .addImm _ _ _ => true
  | .sub _ _ _ => true
  | .subImm _ _ _ => true
  | .mul _ _ _ => true
  | .mulImm _ _ _ => true
  | .mac _ _ _ => true
  | .macImm _ _ _ => true
  | .div _ _ _ => true
  | .divImm _ _ _ => true
  | .mod _ _ _ => true
  | .modImm _ _ _ => true
  | .and _ _ _ => true
  | .andImm _ _ _ => true
  | .or _ _ _ => true
  | .orImm _ _ _ => true
  | .xor _ _ _ => true
  | .xorImm _ _ _ => true
  | .lsl _ _ _ => true
  | .lslImm _ _ _ => true
  | .lsr _ _ _ => true
  | .lsrImm _ _ _ => true
  | .asr _ _ _ => true
  | .asrImm _ _ _ => true
  | .sextb _ _ _ => true
  | .sextbImm _ _ _ => true
  | .sexth _ _ _ => true
  | .sexthImm _ _ _ => true
  | .rol _ _ _ => true
  | .rolImm _ _ _ => true
  | .ror _ _ _ => true
  | .rorImm _ _ _ => true
  | .beq _ _ _ _ => true
  | .beqU _ _ _ _ => true
  | .bne _ _ _ _ => true
  | .bneU _ _ _ _ => true
  | .bgt _ _ _ _ => true
  | .bgtU _ _ _ _ => true
  | .bge _ _ _ _ => true
  | .bgeU _ _ _ _ => true
  | .blt _ _ _ _ => true
  | .bltU _ _ _ _ => true
  | .ble _ _ _ _ => true
  | .bleU _ _ _ _ => true
  | .jeq _ _ _ _ _ => true
  | .jne _ _ _ _ _ => true
  | .jgt _ _ _ _ _ => true
  | .jge _ _ _ _ _ => true
  | .jlt _ _ _ _ _ => true
  | .jle _ _ _ _ _ => true
  | .mtcr _ creg cnum => copSelectorFits creg cnum
  | .mfcr _ creg cnum => copSelectorFits creg cnum
  | .syscall _ => true
  | .tpl0 _ => true
  | .tpl1 _ => true
  | .tpl2 _ => true
  | .tpl3 _ => true
  | .debug _ => true
  | .swe _ => true
  | .ldB _ addr => addr.wellFormed
  | .ldH _ addr => addr.wellFormed
  | .ldW _ addr => addr.wellFormed
  | .stB _ addr => addr.wellFormed
  | .stH _ addr => addr.wellFormed
  | .stW _ addr => addr.wellFormed
  | .leaB _ addr => addr.wellFormed
  | .leaH _ addr => addr.wellFormed
  | .leaW _ addr => addr.wellFormed
  | .li _ _ _ sh => decide (sh < 32)
  | .seq _ _ _ _ => true
  | .sne _ _ _ _ => true
  | .sgt _ _ _ _ => true
  | .sge _ _ _ _ => true
  | .slt _ _ _ _ => true
  | .sle _ _ _ _ => true
  | .cpi0 => true
  | .cpi1 => true

end Sys2Proof
end

