-- ==== Sys2Proof/Decode.lean ====
section
/-! DEFINITION. The decoder (R81, R82), total on all 2^32 words, and the encoder, written from the same
formats (R83 to R90). A word that no instruction rule selects is rejected by the name of the reserved
space it lies in (R94, R96); executing such a word raises ILLEGAL_INSTRUCTION (Machine/Step.lean). -/

namespace Sys2Proof

/-- The reserved space a word lies in (R94, R96). -/
inductive Reserved where
  /-- One of the six reserved groups (R94). -/
  | group (g : BitVec 5)
  /-- Branch-register with condition 0 or 7 (R135). -/
  | branchCond (c : BitVec 3)
  /-- Coprocessor exchange with operation 2 to 31 (R144). -/
  | copOp (op : BitVec 5)
  /-- System sub-operation 7 (R156). -/
  | sysOp
  /-- Load/store operation 3 (R160). -/
  | lsOp
  /-- Load/store size 3 (R160). -/
  | lsSize
  /-- Load/store addressing mode 6 or 7 (R160). -/
  | lsMode (m : BitVec 3)
  deriving DecidableEq, Repr

/-- `w[lo+len-1 : lo]` (R7). -/
def bits (w : Word) (lo len : Nat) : BitVec len := w.extractLsb' lo len

/-- `w[i]`, one bit (R7). -/
def flag (w : Word) (i : Nat) : Bool := w.getLsbD i

/-- The group `w[31:27]` (R81). -/
def groupOf (w : Word) : BitVec 5 := bits w 27 5

/-- The ALU operation that `op = w[5:2]` selects (R101). -/
def AluOp.ofCode (op : BitVec 4) : AluOp :=
  match op.toNat with
  | 0 => .add
  | 1 => .sub
  | 2 => .mul
  | 3 => .mac
  | 4 => .div
  | 5 => .mod
  | 6 => .and
  | 7 => .or
  | 8 => .xor
  | 9 => .lsl
  | 10 => .lsr
  | 11 => .asr
  | 12 => .sextb
  | 13 => .sexth
  | 14 => .rol
  | _ => .ror

/-- The number of an ALU operation (R101). -/
def AluOp.code : AluOp → BitVec 4
  | .add => 0#4
  | .sub => 1#4
  | .mul => 2#4
  | .mac => 3#4
  | .div => 4#4
  | .mod => 5#4
  | .and => 6#4
  | .or => 7#4
  | .xor => 8#4
  | .lsl => 9#4
  | .lsr => 10#4
  | .asr => 11#4
  | .sextb => 12#4
  | .sexth => 13#4
  | .rol => 14#4
  | .ror => 15#4

/-- The predicate a 3-bit condition code selects; 0 and 7 select none (R92, R123). -/
def Cond.ofCode (c : BitVec 3) : Option Cond :=
  match c.toNat with
  | 1 => some .eq
  | 2 => some .ne
  | 3 => some .gt
  | 4 => some .ge
  | 5 => some .lt
  | 6 => some .le
  | _ => none

/-- The code of a condition (R92, R123). -/
def Cond.code : Cond → BitVec 3
  | .eq => 1#3
  | .ne => 2#3
  | .gt => 3#3
  | .ge => 4#3
  | .lt => 5#3
  | .le => 6#3

/-- The ALU instruction of register form (R102). -/
def Instr.aluReg (op : AluOp) (rd rs0 rs1 : RegNum) : Instr :=
  match op with
  | .add => .add rd rs0 rs1
  | .sub => .sub rd rs0 rs1
  | .mul => .mul rd rs0 rs1
  | .mac => .mac rd rs0 rs1
  | .div => .div rd rs0 rs1
  | .mod => .mod rd rs0 rs1
  | .and => .and rd rs0 rs1
  | .or => .or rd rs0 rs1
  | .xor => .xor rd rs0 rs1
  | .lsl => .lsl rd rs0 rs1
  | .lsr => .lsr rd rs0 rs1
  | .asr => .asr rd rs0 rs1
  | .sextb => .sextb rd rs0 rs1
  | .sexth => .sexth rd rs0 rs1
  | .rol => .rol rd rs0 rs1
  | .ror => .ror rd rs0 rs1

/-- The ALU instruction of immediate form (R103). -/
def Instr.aluImm (op : AluOp) (rd : RegNum) (imm16 : BitVec 16) (s : Bool) : Instr :=
  match op with
  | .add => .addImm rd imm16 s
  | .sub => .subImm rd imm16 s
  | .mul => .mulImm rd imm16 s
  | .mac => .macImm rd imm16 s
  | .div => .divImm rd imm16 s
  | .mod => .modImm rd imm16 s
  | .and => .andImm rd imm16 s
  | .or => .orImm rd imm16 s
  | .xor => .xorImm rd imm16 s
  | .lsl => .lslImm rd imm16 s
  | .lsr => .lsrImm rd imm16 s
  | .asr => .asrImm rd imm16 s
  | .sextb => .sextbImm rd imm16 s
  | .sexth => .sexthImm rd imm16 s
  | .rol => .rolImm rd imm16 s
  | .ror => .rorImm rd imm16 s

/-- The branch-immediate instruction; `u` is `w[31]`, set for the zero-extended offset (R127). -/
def Instr.branchImm (c : Cond) (u : Bool) (ra rb : RegNum) (imm16 : BitVec 16) (l : Bool) : Instr :=
  match c, u with
  | .eq, false => .beq ra rb imm16 l
  | .eq, true => .beqU ra rb imm16 l
  | .ne, false => .bne ra rb imm16 l
  | .ne, true => .bneU ra rb imm16 l
  | .gt, false => .bgt ra rb imm16 l
  | .gt, true => .bgtU ra rb imm16 l
  | .ge, false => .bge ra rb imm16 l
  | .ge, true => .bgeU ra rb imm16 l
  | .lt, false => .blt ra rb imm16 l
  | .lt, true => .bltU ra rb imm16 l
  | .le, false => .ble ra rb imm16 l
  | .le, true => .bleU ra rb imm16 l

/-- The branch-register instruction (R134). -/
def Instr.branchReg (c : Cond) (ra rb rt : RegNum) (r l : Bool) : Instr :=
  match c with
  | .eq => .jeq ra rb rt r l
  | .ne => .jne ra rb rt r l
  | .gt => .jgt ra rb rt r l
  | .ge => .jge ra rb rt r l
  | .lt => .jlt ra rb rt r l
  | .le => .jle ra rb rt r l

/-- The set-if-condition instruction (R171). -/
def Instr.setCond (c : Cond) (rd rs : RegNum) (imm16 : BitVec 16) (s : Bool) : Instr :=
  match c with
  | .eq => .seq rd rs imm16 s
  | .ne => .sne rd rs imm16 s
  | .gt => .sgt rd rs imm16 s
  | .ge => .sge rd rs imm16 s
  | .lt => .slt rd rs imm16 s
  | .le => .sle rd rs imm16 s

/-- Format F-ALU, both forms (R83). Bits 11:6 and 0 of the register form are ignored (R91). -/
def decodeAlu (w : Word) : Instr :=
  let op := AluOp.ofCode (bits w 2 4)
  if flag w 1 then .aluImm op (bits w 22 5) (bits w 6 16) (flag w 0)
  else .aluReg op (bits w 22 5) (bits w 17 5) (bits w 12 5)

/-- Format F-BR (R85). Bits 11:5 are ignored (R91); conditions 0 and 7 are reserved (R135). -/
def decodeBranchReg (w : Word) : Except Reserved Instr :=
  match Cond.ofCode (bits w 2 3) with
  | some c =>
    .ok (.branchReg c (bits w 22 5) (bits w 17 5) (bits w 12 5) (flag w 1) (flag w 0))
  | none => .error (.branchCond (bits w 2 3))

/-- Format F-COP (R86). Bits 6:5 are ignored (R91); operations 2 to 31 are reserved (R144). -/
def decodeCop (w : Word) : Except Reserved Instr :=
  match (bits w 0 5).toNat with
  | 0 => .ok (.mtcr (bits w 22 5) (bits w 12 10).toNat (bits w 7 5).toNat)
  | 1 => .ok (.mfcr (bits w 22 5) (bits w 12 10).toNat (bits w 7 5).toNat)
  | _ => .error (.copOp (bits w 0 5))

/-- Format F-SYS (R87, R148). Sub-operation 7 is reserved (R156). -/
def decodeSys (w : Word) : Except Reserved Instr :=
  let imm24 := bits w 0 24
  match (bits w 24 3).toNat with
  | 0 => .ok (.syscall imm24)
  | 1 => .ok (.tpl0 imm24)
  | 2 => .ok (.tpl1 imm24)
  | 3 => .ok (.tpl2 imm24)
  | 4 => .ok (.tpl3 imm24)
  | 5 => .ok (.debug imm24)
  | 6 => .ok (.swe imm24)
  | _ => .error .sysOp

/-- The addressing mode `w[2:0]` with its operands (R88, R157); 6 and 7 are reserved (R160). -/
def decodeAddrMode (w : Word) : Except Reserved AddrMode :=
  let rb := bits w 17 5
  let ri := bits w 12 5
  let sc := (bits w 7 5).toNat
  let imm10 := bits w 7 10
  match (bits w 0 3).toNat with
  | 0 => .ok (.scaledAdd rb ri sc)
  | 1 => .ok (.scaledSub rb ri sc)
  | 2 => .ok (.shiftedAdd rb ri sc)
  | 3 => .ok (.shiftedSub rb ri sc)
  | 4 => .ok (.immAdd rb imm10)
  | 5 => .ok (.immSub rb imm10)
  | _ => .error (.lsMode (bits w 0 3))

/-- Format F-LS (R88, R159, R160): `lop = w[4:3]`, `size = w[6:5]`. -/
def decodeLoadStore (w : Word) : Except Reserved Instr :=
  let rd := bits w 22 5
  match decodeAddrMode w with
  | .error r => .error r
  | .ok addr =>
    match (bits w 3 2).toNat, (bits w 5 2).toNat with
    | 0, 0 => .ok (.ldB rd addr)
    | 0, 1 => .ok (.ldH rd addr)
    | 0, 2 => .ok (.ldW rd addr)
    | 1, 0 => .ok (.stB rd addr)
    | 1, 1 => .ok (.stH rd addr)
    | 1, 2 => .ok (.stW rd addr)
    | 2, 0 => .ok (.leaB rd addr)
    | 2, 1 => .ok (.leaH rd addr)
    | 2, 2 => .ok (.leaW rd addr)
    | 3, _ => .error .lsOp
    | _, _ => .error .lsSize

/-- Format F-LI (R89). -/
def decodeLoadImm (w : Word) : Instr :=
  .li (bits w 22 5) (bits w 6 16) (flag w 5) (bits w 0 5).toNat

/-- Formats F-BI and F-SC, and the six reserved groups, by `w[30:28]`, `w[27]` and `w[31]`, as the
last three lines of R82's decoder say it (R84, R90, R94). -/
def decodeConditional (w : Word) : Except Reserved Instr :=
  match Cond.ofCode (bits w 28 3), flag w 27, flag w 31 with
  | some c, false, u =>
    .ok (.branchImm c u (bits w 22 5) (bits w 17 5) (bits w 1 16) (flag w 0))
  | some c, true, true => .ok (.setCond c (bits w 22 5) (bits w 17 5) (bits w 1 16) (flag w 0))
  | _, _, _ => .error (.group (groupOf w))

/-- The decoder of R82: a pure function of the word, total on all 2^32 words. -/
def decode (w : Word) : Except Reserved Instr :=
  match (groupOf w).toNat with
  | 0 => .ok (decodeAlu w)
  | 13 => decodeBranchReg w
  | 14 => decodeCop w
  | 15 => decodeSys w
  | 16 => decodeLoadStore w
  | 17 => .ok (decodeLoadImm w)
  | 30 => .ok .cpi0
  | 31 => .ok .cpi1
  | _ => decodeConditional w

/-- The word of an opcode-table instruction whose `nbits` low bits are those of `w`; every bit above
them is 0. An instruction of HV2 is one 32-bit word (R18, R98), and the core takes it from the bus
whole, so there is no byte order to apply (R69). -/
def tableWord (nbits w : Nat) : Word := BitVec.ofNat 32 (w % 2 ^ nbits)

/-- The instruction the decoder reads from the word `w` of `nbits` bits, none where it rejects. -/
def decodeTableWord (nbits w : Nat) : Option Instr :=
  match decode (tableWord nbits w) with
  | .ok i => some i
  | .error _ => none

/-- A word with the field `x` at bits `lo` and up, every other bit 0 (R7). -/
def place {k : Nat} (lo : Nat) (x : BitVec k) : Word := x.setWidth 32 <<< lo

/-- Format F-ALU, register form, ignored bits 0 (R83). -/
def encodeAluReg (op : AluOp) (rd rs0 rs1 : RegNum) : Word :=
  place 27 0#5 ||| place 22 rd ||| place 17 rs0 ||| place 12 rs1 ||| place 2 op.code ||| place 1 0#1

/-- Format F-ALU, immediate form (R83). -/
def encodeAluImm (op : AluOp) (rd : RegNum) (imm16 : BitVec 16) (s : Bool) : Word :=
  place 27 0#5 ||| place 22 rd ||| place 6 imm16 ||| place 2 op.code ||| place 1 1#1 |||
    place 0 (BitVec.ofBool s)

/-- Format F-BI (R84). -/
def encodeBranchImm (c : Cond) (u : Bool) (ra rb : RegNum) (imm16 : BitVec 16) (l : Bool) : Word :=
  place 31 (BitVec.ofBool u) ||| place 28 c.code ||| place 27 0#1 ||| place 22 ra ||| place 17 rb |||
    place 1 imm16 ||| place 0 (BitVec.ofBool l)

/-- Format F-BR, ignored bits 0 (R85). -/
def encodeBranchReg (c : Cond) (ra rb rt : RegNum) (r l : Bool) : Word :=
  place 27 13#5 ||| place 22 ra ||| place 17 rb ||| place 12 rt ||| place 2 c.code |||
    place 1 (BitVec.ofBool r) ||| place 0 (BitVec.ofBool l)

/-- Format F-COP, ignored bits 0 (R86). -/
def encodeCop (op : BitVec 5) (rd : RegNum) (creg cnum : Nat) : Word :=
  place 27 14#5 ||| place 22 rd ||| place 12 (BitVec.ofNat 10 creg) ||| place 7 (BitVec.ofNat 5 cnum) |||
    place 0 op

/-- Format F-SYS (R87). -/
def encodeSys (sop : BitVec 3) (imm24 : BitVec 24) : Word :=
  place 27 15#5 ||| place 24 sop ||| place 0 imm24

/-- The base, index, `sc` and mode fields of a register mode (R88). -/
def encodeIndexed (mode : BitVec 3) (rb ri : RegNum) (sc : Nat) : Word :=
  place 17 rb ||| place 12 ri ||| place 7 (BitVec.ofNat 5 sc) ||| place 0 mode

/-- The base, `imm10` and mode fields of an immediate mode (R88). -/
def encodeOffset (mode : BitVec 3) (rb : RegNum) (imm10 : BitVec 10) : Word :=
  place 17 rb ||| place 7 imm10 ||| place 0 mode

/-- The operand and mode fields of format F-LS, the modes numbered as R157 numbers them (R88). -/
def encodeAddrMode : AddrMode → Word
  | .scaledAdd rb ri sc => encodeIndexed 0#3 rb ri sc
  | .scaledSub rb ri sc => encodeIndexed 1#3 rb ri sc
  | .shiftedAdd rb ri sc => encodeIndexed 2#3 rb ri sc
  | .shiftedSub rb ri sc => encodeIndexed 3#3 rb ri sc
  | .immAdd rb imm10 => encodeOffset 4#3 rb imm10
  | .immSub rb imm10 => encodeOffset 5#3 rb imm10

/-- Format F-LS (R88). -/
def encodeLoadStore (lop size : BitVec 2) (rd : RegNum) (addr : AddrMode) : Word :=
  place 27 16#5 ||| place 22 rd ||| place 5 size ||| place 3 lop ||| encodeAddrMode addr

/-- Format F-LI (R89). -/
def encodeLoadImm (rd : RegNum) (imm16 : BitVec 16) (s : Bool) (sh : Nat) : Word :=
  place 27 17#5 ||| place 22 rd ||| place 6 imm16 ||| place 5 (BitVec.ofBool s) |||
    place 0 (BitVec.ofNat 5 sh)

/-- Format F-SC (R90). -/
def encodeSetCond (c : Cond) (rd rs : RegNum) (imm16 : BitVec 16) (s : Bool) : Word :=
  place 31 1#1 ||| place 28 c.code ||| place 27 1#1 ||| place 22 rd ||| place 17 rs |||
    place 1 imm16 ||| place 0 (BitVec.ofBool s)

/-- The word of an instruction, every ignored bit 0 (R81 to R90). -/
def encode : Instr → Word
  | .add rd rs0 rs1 => encodeAluReg .add rd rs0 rs1
  | .addImm rd imm16 s => encodeAluImm .add rd imm16 s
  | .sub rd rs0 rs1 => encodeAluReg .sub rd rs0 rs1
  | .subImm rd imm16 s => encodeAluImm .sub rd imm16 s
  | .mul rd rs0 rs1 => encodeAluReg .mul rd rs0 rs1
  | .mulImm rd imm16 s => encodeAluImm .mul rd imm16 s
  | .mac rd rs0 rs1 => encodeAluReg .mac rd rs0 rs1
  | .macImm rd imm16 s => encodeAluImm .mac rd imm16 s
  | .div rd rs0 rs1 => encodeAluReg .div rd rs0 rs1
  | .divImm rd imm16 s => encodeAluImm .div rd imm16 s
  | .mod rd rs0 rs1 => encodeAluReg .mod rd rs0 rs1
  | .modImm rd imm16 s => encodeAluImm .mod rd imm16 s
  | .and rd rs0 rs1 => encodeAluReg .and rd rs0 rs1
  | .andImm rd imm16 s => encodeAluImm .and rd imm16 s
  | .or rd rs0 rs1 => encodeAluReg .or rd rs0 rs1
  | .orImm rd imm16 s => encodeAluImm .or rd imm16 s
  | .xor rd rs0 rs1 => encodeAluReg .xor rd rs0 rs1
  | .xorImm rd imm16 s => encodeAluImm .xor rd imm16 s
  | .lsl rd rs0 rs1 => encodeAluReg .lsl rd rs0 rs1
  | .lslImm rd imm16 s => encodeAluImm .lsl rd imm16 s
  | .lsr rd rs0 rs1 => encodeAluReg .lsr rd rs0 rs1
  | .lsrImm rd imm16 s => encodeAluImm .lsr rd imm16 s
  | .asr rd rs0 rs1 => encodeAluReg .asr rd rs0 rs1
  | .asrImm rd imm16 s => encodeAluImm .asr rd imm16 s
  | .sextb rd rs0 rs1 => encodeAluReg .sextb rd rs0 rs1
  | .sextbImm rd imm16 s => encodeAluImm .sextb rd imm16 s
  | .sexth rd rs0 rs1 => encodeAluReg .sexth rd rs0 rs1
  | .sexthImm rd imm16 s => encodeAluImm .sexth rd imm16 s
  | .rol rd rs0 rs1 => encodeAluReg .rol rd rs0 rs1
  | .rolImm rd imm16 s => encodeAluImm .rol rd imm16 s
  | .ror rd rs0 rs1 => encodeAluReg .ror rd rs0 rs1
  | .rorImm rd imm16 s => encodeAluImm .ror rd imm16 s
  | .beq ra rb imm16 l => encodeBranchImm .eq false ra rb imm16 l
  | .beqU ra rb imm16 l => encodeBranchImm .eq true ra rb imm16 l
  | .bne ra rb imm16 l => encodeBranchImm .ne false ra rb imm16 l
  | .bneU ra rb imm16 l => encodeBranchImm .ne true ra rb imm16 l
  | .bgt ra rb imm16 l => encodeBranchImm .gt false ra rb imm16 l
  | .bgtU ra rb imm16 l => encodeBranchImm .gt true ra rb imm16 l
  | .bge ra rb imm16 l => encodeBranchImm .ge false ra rb imm16 l
  | .bgeU ra rb imm16 l => encodeBranchImm .ge true ra rb imm16 l
  | .blt ra rb imm16 l => encodeBranchImm .lt false ra rb imm16 l
  | .bltU ra rb imm16 l => encodeBranchImm .lt true ra rb imm16 l
  | .ble ra rb imm16 l => encodeBranchImm .le false ra rb imm16 l
  | .bleU ra rb imm16 l => encodeBranchImm .le true ra rb imm16 l
  | .jeq ra rb rt r l => encodeBranchReg .eq ra rb rt r l
  | .jne ra rb rt r l => encodeBranchReg .ne ra rb rt r l
  | .jgt ra rb rt r l => encodeBranchReg .gt ra rb rt r l
  | .jge ra rb rt r l => encodeBranchReg .ge ra rb rt r l
  | .jlt ra rb rt r l => encodeBranchReg .lt ra rb rt r l
  | .jle ra rb rt r l => encodeBranchReg .le ra rb rt r l
  | .mtcr rd creg cnum => encodeCop 0#5 rd creg cnum
  | .mfcr rd creg cnum => encodeCop 1#5 rd creg cnum
  | .syscall imm24 => encodeSys 0#3 imm24
  | .tpl0 imm24 => encodeSys 1#3 imm24
  | .tpl1 imm24 => encodeSys 2#3 imm24
  | .tpl2 imm24 => encodeSys 3#3 imm24
  | .tpl3 imm24 => encodeSys 4#3 imm24
  | .debug imm24 => encodeSys 5#3 imm24
  | .swe imm24 => encodeSys 6#3 imm24
  | .ldB rd addr => encodeLoadStore 0#2 0#2 rd addr
  | .ldH rd addr => encodeLoadStore 0#2 1#2 rd addr
  | .ldW rd addr => encodeLoadStore 0#2 2#2 rd addr
  | .stB rd addr => encodeLoadStore 1#2 0#2 rd addr
  | .stH rd addr => encodeLoadStore 1#2 1#2 rd addr
  | .stW rd addr => encodeLoadStore 1#2 2#2 rd addr
  | .leaB rd addr => encodeLoadStore 2#2 0#2 rd addr
  | .leaH rd addr => encodeLoadStore 2#2 1#2 rd addr
  | .leaW rd addr => encodeLoadStore 2#2 2#2 rd addr
  | .li rd imm16 s sh => encodeLoadImm rd imm16 s sh
  | .seq rd rs imm16 s => encodeSetCond .eq rd rs imm16 s
  | .sne rd rs imm16 s => encodeSetCond .ne rd rs imm16 s
  | .sgt rd rs imm16 s => encodeSetCond .gt rd rs imm16 s
  | .sge rd rs imm16 s => encodeSetCond .ge rd rs imm16 s
  | .slt rd rs imm16 s => encodeSetCond .lt rd rs imm16 s
  | .sle rd rs imm16 s => encodeSetCond .le rd rs imm16 s
  | .cpi0 => place 27 30#5
  | .cpi1 => place 27 31#5

/-- The bits of a word that its format ignores (R91), and bits 26:0 of the groups 11110 and 11111,
whose words all execute alike (R95). -/
def ignoredBits (w : Word) : Word :=
  match (groupOf w).toNat with
  | 0 => if flag w 1 then 0#32 else 0x00000FC1#32
  | 13 => 0x00000FE0#32
  | 14 => 0x00000060#32
  | 30 => 0x07FFFFFF#32
  | 31 => 0x07FFFFFF#32
  | _ => 0#32

end Sys2Proof
end

