-- ==== Sys2Proof/Machine/System.lean ====
section
/-! DEFINITION. The system operations of group 01111 (R148 to R156), the reserved coprocessor groups
11110 and 11111 (R95, R147), and what executing a word in reserved space does (R94, R96). Every one of
them raises: its whole effect is the dispatcher's. -/

namespace Sys2Proof.Machine

/-- An instruction whose effect is to raise `c` with its immediate (R148). -/
def trapForm (c : Cause) (imm24 : BitVec 24) (s : State) : Host.Outcome State Fault Refusal :=
  .next (s.retireRaise c imm24)

/-- An instruction that raises ILLEGAL_INSTRUCTION; no immediate is recorded (R148, R150). -/
def illegalForm (s : State) : Host.Outcome State Fault Refusal :=
  .next (s.retireRaise .illegalInstruction 0#24)

/-- Executing a word that lies in reserved space raises ILLEGAL_INSTRUCTION, whatever the space (R94,
R96, R135, R144, R156, R160). -/
def execReserved (_ : Reserved) (s : State) : Host.Outcome State Fault Refusal := illegalForm s

/-- `syscall #imm24` (R149). -/
def execSyscall (imm24 : BitVec 24) (s : State) : Host.Outcome State Fault Refusal :=
  trapForm .syscall imm24 s

/-- `tpl0 #imm24`: ILLEGAL_INSTRUCTION, the immediate is not recorded (R150). -/
def execTpl0 (_ : BitVec 24) (s : State) : Host.Outcome State Fault Refusal := illegalForm s

/-- `tpl1 #imm24`: ILLEGAL_INSTRUCTION, the immediate is not recorded (R151). -/
def execTpl1 (_ : BitVec 24) (s : State) : Host.Outcome State Fault Refusal := illegalForm s

/-- `tpl2 #imm24`: ILLEGAL_INSTRUCTION, the immediate is not recorded (R152). -/
def execTpl2 (_ : BitVec 24) (s : State) : Host.Outcome State Fault Refusal := illegalForm s

/-- `tpl3 #imm24`: ILLEGAL_INSTRUCTION, the immediate is not recorded (R153). -/
def execTpl3 (_ : BitVec 24) (s : State) : Host.Outcome State Fault Refusal := illegalForm s

/-- `debug #imm24` (R154). -/
def execDebug (imm24 : BitVec 24) (s : State) : Host.Outcome State Fault Refusal :=
  trapForm .debug imm24 s

/-- `swe #imm24` (R155). -/
def execSwe (imm24 : BitVec 24) (s : State) : Host.Outcome State Fault Refusal :=
  trapForm .swe imm24 s

/-- `cpi0`, any word of group 11110: ILLEGAL_INSTRUCTION (R147). -/
def execCpi0 (s : State) : Host.Outcome State Fault Refusal := illegalForm s

/-- `cpi1`, any word of group 11111: ILLEGAL_INSTRUCTION (R147). -/
def execCpi1 (s : State) : Host.Outcome State Fault Refusal := illegalForm s

end Sys2Proof.Machine
end

