-- ==== Sys2Proof/Machine/Dispatch.lean ====
section
/-! DEFINITION. The execute step of an instruction, end-of-instruction actions included (R31, R32): one
arm per constructor of `Instr`, each one direct call of that instruction's meaning. -/

namespace Sys2Proof.Machine

def exec (i : Instr) (s : State) : Host.Outcome State Fault Refusal :=
  match i with
  | .add rd rs0 rs1 => Sys2Proof.Machine.execAdd rd rs0 rs1 s
  | .addImm rd imm16 sx => Sys2Proof.Machine.execAddImm rd imm16 sx s
  | .sub rd rs0 rs1 => Sys2Proof.Machine.execSub rd rs0 rs1 s
  | .subImm rd imm16 sx => Sys2Proof.Machine.execSubImm rd imm16 sx s
  | .mul rd rs0 rs1 => Sys2Proof.Machine.execMul rd rs0 rs1 s
  | .mulImm rd imm16 sx => Sys2Proof.Machine.execMulImm rd imm16 sx s
  | .mac rd rs0 rs1 => Sys2Proof.Machine.execMac rd rs0 rs1 s
  | .macImm rd imm16 sx => Sys2Proof.Machine.execMacImm rd imm16 sx s
  | .div rd rs0 rs1 => Sys2Proof.Machine.execDiv rd rs0 rs1 s
  | .divImm rd imm16 sx => Sys2Proof.Machine.execDivImm rd imm16 sx s
  | .mod rd rs0 rs1 => Sys2Proof.Machine.execMod rd rs0 rs1 s
  | .modImm rd imm16 sx => Sys2Proof.Machine.execModImm rd imm16 sx s
  | .and rd rs0 rs1 => Sys2Proof.Machine.execAnd rd rs0 rs1 s
  | .andImm rd imm16 sx => Sys2Proof.Machine.execAndImm rd imm16 sx s
  | .or rd rs0 rs1 => Sys2Proof.Machine.execOr rd rs0 rs1 s
  | .orImm rd imm16 sx => Sys2Proof.Machine.execOrImm rd imm16 sx s
  | .xor rd rs0 rs1 => Sys2Proof.Machine.execXor rd rs0 rs1 s
  | .xorImm rd imm16 sx => Sys2Proof.Machine.execXorImm rd imm16 sx s
  | .lsl rd rs0 rs1 => Sys2Proof.Machine.execLsl rd rs0 rs1 s
  | .lslImm rd imm16 sx => Sys2Proof.Machine.execLslImm rd imm16 sx s
  | .lsr rd rs0 rs1 => Sys2Proof.Machine.execLsr rd rs0 rs1 s
  | .lsrImm rd imm16 sx => Sys2Proof.Machine.execLsrImm rd imm16 sx s
  | .asr rd rs0 rs1 => Sys2Proof.Machine.execAsr rd rs0 rs1 s
  | .asrImm rd imm16 sx => Sys2Proof.Machine.execAsrImm rd imm16 sx s
  | .sextb rd rs0 rs1 => Sys2Proof.Machine.execSextb rd rs0 rs1 s
  | .sextbImm rd imm16 sx => Sys2Proof.Machine.execSextbImm rd imm16 sx s
  | .sexth rd rs0 rs1 => Sys2Proof.Machine.execSexth rd rs0 rs1 s
  | .sexthImm rd imm16 sx => Sys2Proof.Machine.execSexthImm rd imm16 sx s
  | .rol rd rs0 rs1 => Sys2Proof.Machine.execRol rd rs0 rs1 s
  | .rolImm rd imm16 sx => Sys2Proof.Machine.execRolImm rd imm16 sx s
  | .ror rd rs0 rs1 => Sys2Proof.Machine.execRor rd rs0 rs1 s
  | .rorImm rd imm16 sx => Sys2Proof.Machine.execRorImm rd imm16 sx s
  | .beq ra rb imm16 l => Sys2Proof.Machine.execBeq ra rb imm16 l s
  | .beqU ra rb imm16 l => Sys2Proof.Machine.execBeqU ra rb imm16 l s
  | .bne ra rb imm16 l => Sys2Proof.Machine.execBne ra rb imm16 l s
  | .bneU ra rb imm16 l => Sys2Proof.Machine.execBneU ra rb imm16 l s
  | .bgt ra rb imm16 l => Sys2Proof.Machine.execBgt ra rb imm16 l s
  | .bgtU ra rb imm16 l => Sys2Proof.Machine.execBgtU ra rb imm16 l s
  | .bge ra rb imm16 l => Sys2Proof.Machine.execBge ra rb imm16 l s
  | .bgeU ra rb imm16 l => Sys2Proof.Machine.execBgeU ra rb imm16 l s
  | .blt ra rb imm16 l => Sys2Proof.Machine.execBlt ra rb imm16 l s
  | .bltU ra rb imm16 l => Sys2Proof.Machine.execBltU ra rb imm16 l s
  | .ble ra rb imm16 l => Sys2Proof.Machine.execBle ra rb imm16 l s
  | .bleU ra rb imm16 l => Sys2Proof.Machine.execBleU ra rb imm16 l s
  | .jeq ra rb rt r l => Sys2Proof.Machine.execJeq ra rb rt r l s
  | .jne ra rb rt r l => Sys2Proof.Machine.execJne ra rb rt r l s
  | .jgt ra rb rt r l => Sys2Proof.Machine.execJgt ra rb rt r l s
  | .jge ra rb rt r l => Sys2Proof.Machine.execJge ra rb rt r l s
  | .jlt ra rb rt r l => Sys2Proof.Machine.execJlt ra rb rt r l s
  | .jle ra rb rt r l => Sys2Proof.Machine.execJle ra rb rt r l s
  | .mtcr rd creg cnum => Sys2Proof.Machine.execMtcr rd creg cnum s
  | .mfcr rd creg cnum => Sys2Proof.Machine.execMfcr rd creg cnum s
  | .syscall imm24 => Sys2Proof.Machine.execSyscall imm24 s
  | .tpl0 imm24 => Sys2Proof.Machine.execTpl0 imm24 s
  | .tpl1 imm24 => Sys2Proof.Machine.execTpl1 imm24 s
  | .tpl2 imm24 => Sys2Proof.Machine.execTpl2 imm24 s
  | .tpl3 imm24 => Sys2Proof.Machine.execTpl3 imm24 s
  | .debug imm24 => Sys2Proof.Machine.execDebug imm24 s
  | .swe imm24 => Sys2Proof.Machine.execSwe imm24 s
  | .ldB rd addr => Sys2Proof.Machine.execLdB rd addr s
  | .ldH rd addr => Sys2Proof.Machine.execLdH rd addr s
  | .ldW rd addr => Sys2Proof.Machine.execLdW rd addr s
  | .stB rd addr => Sys2Proof.Machine.execStB rd addr s
  | .stH rd addr => Sys2Proof.Machine.execStH rd addr s
  | .stW rd addr => Sys2Proof.Machine.execStW rd addr s
  | .leaB rd addr => Sys2Proof.Machine.execLeaB rd addr s
  | .leaH rd addr => Sys2Proof.Machine.execLeaH rd addr s
  | .leaW rd addr => Sys2Proof.Machine.execLeaW rd addr s
  | .li rd imm16 sx sh => Sys2Proof.Machine.execLi rd imm16 sx sh s
  | .seq rd rs imm16 sx => Sys2Proof.Machine.execSeq rd rs imm16 sx s
  | .sne rd rs imm16 sx => Sys2Proof.Machine.execSne rd rs imm16 sx s
  | .sgt rd rs imm16 sx => Sys2Proof.Machine.execSgt rd rs imm16 sx s
  | .sge rd rs imm16 sx => Sys2Proof.Machine.execSge rd rs imm16 sx s
  | .slt rd rs imm16 sx => Sys2Proof.Machine.execSlt rd rs imm16 sx s
  | .sle rd rs imm16 sx => Sys2Proof.Machine.execSle rd rs imm16 sx s
  | .cpi0 => Sys2Proof.Machine.execCpi0 s
  | .cpi1 => Sys2Proof.Machine.execCpi1 s

end Sys2Proof.Machine
end

