-- ==== Sys2Proof/Machine/Step.lean ====
section
/-! DEFINITION. One cycle, the only step of the core (R30): shift, fetch, execute slot 2. -/

namespace Sys2Proof.Machine

/-- `Execute(w)` (R31): the instruction's rule, or, for a word in reserved space, ILLEGAL_INSTRUCTION. -/
def executeWord (w : Word) (s : State) : Host.Outcome State Fault Refusal :=
  match decode w with
  | .ok i => exec i s
  | .error r => execReserved r s

/-- One cycle (R30): exactly one slot, slot 2, is executed, after the shift and the fetch. -/
def step (s : State) : Host.Outcome State Fault Refusal :=
  executeWord s.fetchCycle.pipe2 s.fetchCycle

/-- `s` with the instruction word of `nbits` bits put where the very next step takes the word it
executes: pipeline slot 1, which that step shifts into slot 2 (R30). It stands for a word that the host
loaded and that two earlier cycles fetched (R196, R198; log entry 5). -/
def State.withFetchWord (s : State) (nbits w : Nat) : State := { s with pipe1 := tableWord nbits w }

end Sys2Proof.Machine
end

