-- ==== Sys2Proof/Machine/HostPort.lean ====
section
/-! DEFINITION. What the host may do between two cycles (R4, R198): reset, write any core state with any
value, and, outside the core, attach devices before the first cycle and load a RAM (R61, R197). None of
it happens inside `step` (log entry 6). -/

namespace Sys2Proof.Machine

/-- Reset (R195): every piece of core state takes its reset value; no device is called or reset. -/
def State.hostReset (s : State) : State := { State.reset with devices := s.devices, ports := s.ports }

/-- A host write of one piece of core state (R20, R198). -/
inductive HostWrite where
  | reg (r : RegNum) (v : Word)
  | pipe (p0 p1 p2 : Word)
  | pl (v : PrivLevel)
  | cop (cell : CopCell) (v : Word)
  deriving DecidableEq, Repr

/-- The effect of a host write: that one piece of state, and it triggers nothing (R198). -/
def State.hostWrite (s : State) : HostWrite → State
  | .reg r v => s.setReg r v
  | .pipe p0 p1 p2 => s.setPipe p0 p1 p2
  | .pl v => s.setPl v
  | .cop cell v => s.writeCell cell v

/-- Attach a memory-mapped device after those attached before it (R61). -/
def State.attachDevice (s : State) (d : MemDevice) : State := s.setDevices (s.devices ++ [d])

/-- Attach a port-mapped device after those attached before it (R66). -/
def State.attachPort (s : State) (d : PortDevice) : State := s.setPorts (s.ports ++ [d])

/-- Put one byte into a RAM device at a local address. -/
def MemDevice.loadByte (d : MemDevice) (a : Nat) (v : Byte) : MemDevice :=
  match d.body with
  | .ram cells => { d with body := .ram (ramWriteByte d.size cells a v) }
  | .external _ _ => d

/-- Load one byte of a program's image where a RAM owns the physical address; elsewhere nothing happens
(R197: loading is the host's). -/
def hostLoadByte : List MemDevice → Word → Byte → List MemDevice
  | [], _, _ => []
  | d :: ds, pa, v =>
    if d.owns pa then d.loadByte (pa.toNat - d.start) v :: ds else d :: hostLoadByte ds pa v

/-- Load bytes from a physical address on (R197). -/
def State.hostLoad (s : State) (pa : Word) : List Byte → State
  | [] => s
  | v :: vs => (s.setDevices (hostLoadByte s.devices pa v)).hostLoad (pa + 1#32) vs

end Sys2Proof.Machine
end

