-- ==== Sys2Proof/Safety.lean ====
section
/-! DEFINITION. The terms claims are stated in: the well-formedness that every step keeps, and what an
instruction changes and leaves unchanged, field by field and byte by byte. -/

namespace Sys2Proof.Machine

/-! ### Well-formed states -/

/-- A device's storage is canonical and inside its range; an external device has none. -/
def MemDevice.wf (d : MemDevice) : Bool :=
  match d.body with
  | .ram cells => Memory.wf cells && Memory.below d.size cells
  | .external _ _ => true

/-- Every attached device is well formed. The core state needs no condition: every value of every
register is a legal one (R20, R198). -/
def State.wf (s : State) : Bool := s.devices.all MemDevice.wf

/-- What never changes about an attached device: its range, and which device it is (R61: "never detached
at runtime"). -/
inductive DeviceKind where
  | ram
  | external (id : Nat)
  deriving DecidableEq, Repr

/-- The kind of a device. -/
def MemDevice.kind (d : MemDevice) : DeviceKind :=
  match d.body with
  | .ram _ => .ram
  | .external id _ => .external id

/-- The attached devices without their contents: ranges and kinds in registration order. -/
def State.attachment (s : State) : List (Nat × Nat × DeviceKind) :=
  s.devices.map fun d => (d.start, d.stop, d.kind)

/-- The byte of the RAM that is device number `k`, at a local address; none for no such RAM. -/
def State.ramAt (s : State) (k a : Nat) : Option Byte :=
  match s.devices[k]? with
  | none => none
  | some d =>
    match d.body with
    | .ram cells => some (ramByte d.size cells a)
    | .external _ _ => none

/-! ### What an instruction leaves unchanged -/

/-- The pipeline slots are unchanged. -/
def PipeKept (s t : State) : Prop := t.pipe0 = s.pipe0 ∧ t.pipe1 = s.pipe1 ∧ t.pipe2 = s.pipe2

/-- The pipeline slots are all zero (R28). -/
def PipeFlushed (t : State) : Prop := t.pipe0 = 0#32 ∧ t.pipe1 = 0#32 ∧ t.pipe2 = 0#32

/-- The pipeline after a flow transfer: flushed when FOFT is 1, unchanged when it is 0 (R32, R199). -/
def PipeAfterFlow (s t : State) : Prop :=
  (s.cr0.getLsbD 3 = true → PipeFlushed t) ∧ (s.cr0.getLsbD 3 = false → PipeKept s t)

/-- The control state is unchanged: PL, the five COP0 registers, MMUCR and the mapping tables. -/
def ControlKept (s t : State) : Prop :=
  t.pl = s.pl ∧ t.cr0 = s.cr0 ∧ t.cr1 = s.cr1 ∧ t.cause = s.cause ∧ t.handler = s.handler ∧
    t.epc = s.epc ∧ t.mmucr = s.mmucr ∧ t.maps = s.maps

/-- Every byte of memory reads as before. -/
def BytesKept (s t : State) : Prop := ∀ pa : Word, t.peekByte pa = s.peekByte pa

/-- No device was called: every device and port device is unchanged, and so is every byte of memory. -/
def NoDeviceCall (s t : State) : Prop := t.devices = s.devices ∧ t.ports = s.ports ∧ BytesKept s t

/-- The registers after an instruction whose one destination is `rd`: `x[rd]` holds `v`, a write to x[0]
vanishes, x[0] is 0, and every other register is unchanged (R22, R104). -/
def RegWritten (s t : State) (rd : RegNum) (v : Word) : Prop :=
  t.reg 0#5 = 0#32 ∧ (rd ≠ 0#5 → t.reg rd = v) ∧
    ∀ r : RegNum, r ≠ 0#5 → r ≠ rd → t.reg r = s.reg r

/-- The registers after an instruction that writes none: x[0] is 0, the others are unchanged. -/
def RegsKept (s t : State) : Prop :=
  t.reg 0#5 = 0#32 ∧ ∀ r : RegNum, r ≠ 0#5 → t.reg r = s.reg r

/-- The core after an instruction whose one effect on it is `x[rd] <- v`: the registers, the pipeline (a
write to r31 is a flow transfer), the control state (R32, R104). -/
def WritesReg (s t : State) (rd : RegNum) (v : Word) : Prop :=
  RegWritten s t rd v ∧ (rd = pcNum → PipeAfterFlow s t) ∧ (rd ≠ pcNum → PipeKept s t) ∧
    ControlKept s t

/-- The effect of a branch (R125): taken, the link write, the target and the flow transfer; untaken,
nothing. -/
def Branches (s t : State) (taken : Prop) (target : Word) (l : Bool) : Prop :=
  ControlKept s t ∧ NoDeviceCall s t ∧ t.reg 0#5 = 0#32 ∧
    (taken → t.reg pcNum = target ∧ (l = true → t.reg linkNum = s.reg pcNum) ∧
      (∀ r : RegNum, r ≠ 0#5 → r ≠ pcNum → (l = true → r ≠ linkNum) → t.reg r = s.reg r) ∧
      PipeAfterFlow s t) ∧
    (¬ taken → (∀ r : RegNum, r ≠ 0#5 → t.reg r = s.reg r) ∧ PipeKept s t)

/-! ### What taking an exception does -/

/-- MMUCR after exception entry to level `pl` (R179 steps 5 to 7): EN by EOP1 at PL1, else by DOP0 at PL0;
AMI by RPT; every other bit as it was. -/
def EntryPolicies (pl : PrivLevel) (w w' : Word) : Prop :=
  w'.getLsbD 0 = (if w.getLsbD 1 = true ∧ pl = 1#2 then true
    else if w.getLsbD 2 = true ∧ pl = 0#2 then false else w.getLsbD 0) ∧
  w'.extractLsb' 8 2 = (if w.getLsbD 3 = true then pl else w.extractLsb' 8 2) ∧
  ∀ i : Nat, i ≠ 0 → i ≠ 8 → i ≠ 9 → w'.getLsbD i = w.getLsbD i

/-- What the dispatcher of R179 changes and leaves unchanged, apart from the general registers other
than x[31]. -/
def Dispatched (s t : State) (code : BitVec 8) (imm24 : BitVec 24) : Prop :=
  t.cause = imm24 ++ code ∧ t.epc = s.reg pcNum ∧ t.reg pcNum = s.handler ∧
    t.pl.toNat = s.pl.toNat - 1 ∧ EntryPolicies t.pl s.mmucr t.mmucr ∧ PipeAfterFlow s t ∧
    t.cr0 = s.cr0 ∧ t.cr1 = s.cr1 ∧ t.handler = s.handler ∧ t.maps = s.maps ∧ NoDeviceCall s t

/-- The whole effect of an instruction that raises (R181): the dispatcher's, and x[0] cleared (R32). -/
def Raises (s t : State) (code : BitVec 8) (imm24 : BitVec 24) : Prop :=
  Dispatched s t code imm24 ∧ t.reg 0#5 = 0#32 ∧
    ∀ r : RegNum, r ≠ 0#5 → r ≠ pcNum → t.reg r = s.reg r

/-! ### Completing -/

/-- The instruction completes: its one effect is `x[rd] <- v`, and no device is called. -/
def CompletesWriting (o : Host.Outcome State Fault Refusal) (s : State) (rd : RegNum) (v : Word) : Prop :=
  ∃ t, o = .next t ∧ WritesReg s t rd v ∧ NoDeviceCall s t

/-- The instruction answers a next state, in which it has raised the exception with this code and this
immediate and done nothing else (R181). -/
def AnswersRaising (o : Host.Outcome State Fault Refusal) (s : State) (code : BitVec 8) (imm24 : BitVec 24) :
    Prop :=
  ∃ t, o = .next t ∧ Raises s t code imm24

/-- The branch completes, taken or untaken (R125). -/
def CompletesBranching (o : Host.Outcome State Fault Refusal) (s : State) (taken : Prop) (target : Word)
    (l : Bool) : Prop :=
  ∃ t, o = .next t ∧ Branches s t taken target l

/-- The load completes: the value the bus answers to the one read at `pa` is its one register write, the
device called is as that read leaves it, and no byte of memory changes (R159, R72). -/
def CompletesLoading (o : Host.Outcome State Fault Refusal) (s : State) (rd : RegNum) (pa : Word)
    (sz : SizeCode) : Prop :=
  ∃ t, o = .next t ∧ WritesReg s t rd (s.busRead pa sz).1 ∧ t.devices = (s.busRead pa sz).2.devices ∧
    t.ports = s.ports ∧ BytesKept s t

/-- The store completes: the devices are as the one bus write at `pa` leaves them, and the core is
unchanged. The `n` bytes from `pa` on are the low bytes of `v`, lowest address first, wherever the RAM
that owns `pa` also owns their address; every byte outside them reads as before (R69, R73, R165 to
R167). -/
def CompletesStoring (o : Host.Outcome State Fault Refusal) (s : State) (pa : Word) (sz : SizeCode) (n : Nat)
    (v : Word) : Prop :=
  ∃ t, o = .next t ∧ RegsKept s t ∧ PipeKept s t ∧ ControlKept s t ∧
    t.devices = (s.busWrite pa sz v).devices ∧ t.ports = s.ports ∧ t.attachment = s.attachment ∧
    (∀ q : Word, (∀ k : Nat, k < n → q.toNat ≠ pa.toNat + k) → t.peekByte q = s.peekByte q) ∧
    (∀ (d : MemDevice) (cells : Memory), ownerOf s.devices pa = some d → d.body = .ram cells →
      ∀ (q : Word) (k : Nat), k < n → q.toNat = pa.toNat + k → ownerOf s.devices q = some d →
        t.peekByte q = some (v.extractLsb' (8 * k) 8))

/-! ### Flow transfers -/

/-- When executing an instruction is a flow transfer (R13, R32, R199): its destination is r31, or it is a
branch whose condition holds, or it raises an exception. -/
def FlowTransfer (s : State) : Instr → Prop
  | .add rd _ _ | .sub rd _ _ | .mul rd _ _ | .mac rd _ _ | .and rd _ _ | .or rd _ _ | .xor rd _ _
  | .lsl rd _ _ | .lsr rd _ _ | .asr rd _ _ | .sextb rd _ _ | .sexth rd _ _ | .rol rd _ _
  | .ror rd _ _ => rd = pcNum
  | .addImm rd _ _ | .subImm rd _ _ | .mulImm rd _ _ | .macImm rd _ _ | .andImm rd _ _ | .orImm rd _ _
  | .xorImm rd _ _ | .lslImm rd _ _ | .lsrImm rd _ _ | .asrImm rd _ _ | .sextbImm rd _ _
  | .sexthImm rd _ _ | .rolImm rd _ _ | .rorImm rd _ _ => rd = pcNum
  | .div rd _ rs1 | .mod rd _ rs1 => rd = pcNum ∨ s.reg rs1 = 0#32
  | .divImm rd imm16 _ | .modImm rd imm16 _ => rd = pcNum ∨ imm16 = 0#16
  | .beq ra rb _ _ | .beqU ra rb _ _ | .jeq ra rb _ _ _ => (s.reg ra).toNat = (s.reg rb).toNat
  | .bne ra rb _ _ | .bneU ra rb _ _ | .jne ra rb _ _ _ => (s.reg ra).toNat ≠ (s.reg rb).toNat
  | .bgt ra rb _ _ | .bgtU ra rb _ _ | .jgt ra rb _ _ _ => (s.reg ra).toNat > (s.reg rb).toNat
  | .bge ra rb _ _ | .bgeU ra rb _ _ | .jge ra rb _ _ _ => (s.reg ra).toNat ≥ (s.reg rb).toNat
  | .blt ra rb _ _ | .bltU ra rb _ _ | .jlt ra rb _ _ _ => (s.reg ra).toNat < (s.reg rb).toNat
  | .ble ra rb _ _ | .bleU ra rb _ _ | .jle ra rb _ _ _ => (s.reg ra).toNat ≤ (s.reg rb).toNat
  | .mtcr _ creg cnum => s.resolve cnum creg = none
  | .mfcr rd creg cnum => rd = pcNum ∨ s.resolve cnum creg = none
  | .syscall _ | .tpl0 _ | .tpl1 _ | .tpl2 _ | .tpl3 _ | .debug _ | .swe _ => True
  | .cpi0 | .cpi1 => True
  | .ldB rd addr => rd = pcNum ∨ ∃ c, s.translate (s.effectiveAddress addr) .read .byte = .error c
  | .ldH rd addr => rd = pcNum ∨ ∃ c, s.translate (s.effectiveAddress addr) .read .short = .error c
  | .ldW rd addr => rd = pcNum ∨ ∃ c, s.translate (s.effectiveAddress addr) .read .long = .error c
  | .stB _ addr => ∃ c, s.translate (s.effectiveAddress addr) .write .byte = .error c
  | .stH _ addr => ∃ c, s.translate (s.effectiveAddress addr) .write .short = .error c
  | .stW _ addr => ∃ c, s.translate (s.effectiveAddress addr) .write .long = .error c
  | .leaB rd _ | .leaH rd _ | .leaW rd _ => rd = pcNum
  | .li rd _ _ _ => rd = pcNum
  | .seq rd _ _ _ | .sne rd _ _ _ | .sgt rd _ _ _ | .sge rd _ _ _ | .slt rd _ _ _
  | .sle rd _ _ _ => rd = pcNum

/-- The outcome of executing a flow transfer from `s`: of an instruction that makes one, or of a word in
reserved space, which raises (R94, R96). -/
def TransfersFlow (s : State) (o : Host.Outcome State Fault Refusal) : Prop :=
  (∃ i : Instr, FlowTransfer s i ∧ o = exec i s) ∨
    ∃ (w : Word) (r : Reserved), decode w = .error r ∧ o = executeWord w s

/-! ### Safe runs -/

/-- A run of `n` cycles reaches a state: no fault and no refusal ends it. -/
def RunsFor (n : Nat) (s : State) : Prop := ∃ t, Host.Core.run Sys2Proof.core n s = .next t

end Sys2Proof.Machine
end

