-- ==== Sys2Proof/Certificates/Slice0/Obligations.lean ====
section
/-! DEFINITION. What is to be proved of the model: one statement per definition, each formalising what
rules of spec/ say. The vocabulary (`Raises`, `WritesReg`, `Branches`, ...) is that of Safety.lean. -/

open Sys2Proof Sys2Proof.Machine

/-! ### Reset and the machine as a whole -/

/-- R50. Every piece of core state after reset holds the value of R50's table.
Spec decisions: D9, D10 (log entry 13). -/
def Obligations.ResetHoldsSpecValues : Prop :=
  (∀ r : RegNum, State.reset.reg r = 0#32) ∧
    State.reset.pipe0 = 0#32 ∧ State.reset.pipe1 = 0#32 ∧ State.reset.pipe2 = 0#32 ∧
    State.reset.pl = 0#2 ∧ State.reset.cr0 = 0#32 ∧ State.reset.cr1 = 0#32 ∧
    State.reset.cause = 0x000000FF#32 ∧ State.reset.handler = 0#32 ∧ State.reset.epc = 0#32 ∧
    State.reset.mmucr = 0#32 ∧
    ∀ (m : BitVec 2) (i : Fin 32) (f : MapField), (State.reset.entry m i).get f = 0#32

/-- The storage of the machine after reset is well formed. The RAM attached at reset is the model's choice
(log entry 1). -/
def Obligations.ResetStorageIsCanonical : Prop := State.reset.wf = true

/-- Every cycle keeps every RAM's storage canonical and inside its device's range, from every state in
which it is so.
Spec decisions: D20 (log entry 13). -/
def Obligations.StepKeepsStorageCanonical : Prop :=
  ∀ s t : State, s.wf = true → step s = .next t → t.wf = true

/-- No state stops the machine: every cycle answers a next state, and every run of every length is a run
to its end (R14, R31, R194).
Spec decisions: D4, D48 (log entry 13). -/
def Obligations.EveryCycleAnswersNext : Prop :=
  (∀ s : State, ∃ t, step s = .next t) ∧ ∀ (n : Nat) (s : State), RunsFor n s

/-- R30. One cycle shifts the slots and fetches at `x[31]`, then executes slot 2. After a successful
fetch the word is in slot 0 and `x[31]` has advanced by 4 modulo 2^32; after a failed one the dispatcher
has run, slot 0 holds 0 and `x[31]` keeps the handler address.
Spec decisions: D1, D2, D3 (log entry 13). -/
def Obligations.CycleShiftsFetchesExecutes : Prop :=
  ∀ s : State,
    ∃ u : State, step s = executeWord u.pipe2 u ∧
      (∀ r : RegNum, r ≠ pcNum → u.reg r = s.reg r) ∧ u.ports = s.ports ∧ BytesKept s u ∧
      (∀ pa : Word, s.translate (s.reg pcNum) .exec .execute = .ok pa →
        u.pipe2 = s.pipe1 ∧ u.pipe1 = s.pipe0 ∧ u.pipe0 = (s.busRead pa .execute).1 ∧
          (u.reg pcNum).toNat = ((s.reg pcNum).toNat + 4) % 2 ^ 32 ∧ ControlKept s u ∧
          u.devices = (s.busRead pa .execute).2.devices) ∧
      (∀ c : Cause, s.translate (s.reg pcNum) .exec .execute = .error c →
        u.cause = 0#24 ++ causeCode c ∧ u.epc = s.reg pcNum ∧ u.reg pcNum = s.handler ∧
          u.pl.toNat = s.pl.toNat - 1 ∧ EntryPolicies u.pl s.mmucr u.mmucr ∧ u.pipe0 = 0#32 ∧
          (s.cr0.getLsbD 3 = true → u.pipe1 = 0#32 ∧ u.pipe2 = 0#32) ∧
          (s.cr0.getLsbD 3 = false → u.pipe1 = s.pipe0 ∧ u.pipe2 = s.pipe1) ∧
          u.cr0 = s.cr0 ∧ u.cr1 = s.cr1 ∧ u.handler = s.handler ∧ u.maps = s.maps ∧
          u.devices = s.devices)

/-- A cycle runs the decoded instruction: when its fetch succeeds and the word in slot 1 decodes to `i`,
the cycle is `exec i` at the state in which that word is in slot 2, the newly fetched word in slot 0 and
`x[31]` advanced.
Spec decisions: D1 (log entry 13). -/
def Obligations.StepRunsDecodedInstruction : Prop :=
  ∀ (s : State) (pa : Word) (i : Instr), s.translate (s.reg pcNum) .exec .execute = .ok pa →
    decode s.pipe1 = .ok i →
    ∃ u : State, step s = exec i u ∧ u.pipe2 = s.pipe1 ∧ u.pipe1 = s.pipe0 ∧
      u.pipe0 = (s.busRead pa .execute).1 ∧ u.reg pcNum = s.reg pcNum + 4#32 ∧
      (∀ r : RegNum, r ≠ pcNum → u.reg r = s.reg r) ∧ ControlKept s u ∧
      u.devices = (s.busRead pa .execute).2.devices ∧ u.ports = s.ports ∧ BytesKept s u

/-- R196. After a reset, whatever the devices, the word that a fetch of address 0 reads is the word
executed in the third cycle, with `x[31] = 12`.
Spec decisions: D1, D9 (log entry 13). -/
def Obligations.FirstWordExecutesInThirdCycle : Prop :=
  ∀ s : State,
    ∃ t1 t2 u : State, step s.hostReset = .next t1 ∧ step t1 = .next t2 ∧
      step t2 = executeWord (s.hostReset.busRead 0#32 .execute).1 u ∧
      u.pipe2 = (s.hostReset.busRead 0#32 .execute).1 ∧ u.reg pcNum = 12#32 ∧ u.pl = 0#2 ∧
      u.mmucr = 0#32

/-- R22. After every cycle, and after every executed word, register 0 holds 0. -/
def Obligations.RegisterZeroReadsZero : Prop :=
  (∀ (w : Word) (s t : State), executeWord w s = .next t → t.reg 0#5 = 0#32) ∧
    ∀ s t : State, step s = .next t → t.reg 0#5 = 0#32

/-- R29. The zero word decodes to `add r0, r0, r0`; executing it changes nothing but `x[0]`, which it
clears. -/
def Obligations.ZeroWordIsABubble : Prop :=
  decode 0#32 = .ok (.add 0#5 0#5 0#5) ∧
    ∀ s : State,
      CompletesWriting (executeWord 0#32 s) s 0#5 0#32 ∧
        (s.reg 0#5 = 0#32 → executeWord 0#32 s = .next s)

/-- R37, R186. The privilege level never increases: an executed word leaves it or lowers it by one, a
cycle by at most two, and never below 0.
Spec decisions: D8, D47 (log entry 13). -/
def Obligations.PrivilegeLevelNeverIncreases : Prop :=
  (∀ (w : Word) (s t : State), executeWord w s = .next t →
      t.pl.toNat = s.pl.toNat ∨ t.pl.toNat = s.pl.toNat - 1) ∧
    ∀ s t : State, step s = .next t → t.pl.toNat ≤ s.pl.toNat ∧ s.pl.toNat - 2 ≤ t.pl.toNat

/-- R38, R187. The privilege level influences nothing but itself while no exception-entry policy is set:
from two states that differ only in the level, a cycle gives two states that differ only in the level.
Spec decisions: D35 (log entry 13). -/
def Obligations.PrivilegeLevelInfluencesNothing : Prop :=
  ∀ (s t : State) (p : PrivLevel), s.mmucr.getLsbD 1 = false → s.mmucr.getLsbD 2 = false →
    s.mmucr.getLsbD 3 = false → step s = .next t →
    ∃ q : PrivLevel, step { s with pl := p } = .next { t with pl := q }

/-- R39, R46. No instruction but `mtcr` changes CR0, CR1, HANDLER or a mapping table. -/
def Obligations.OnlyMtcrWritesControlCells : Prop :=
  ∀ (i : Instr) (s t : State), (∀ (rd : RegNum) (creg cnum : Nat), i ≠ .mtcr rd creg cnum) →
    exec i s = .next t →
    t.cr0 = s.cr0 ∧ t.cr1 = s.cr1 ∧ t.handler = s.handler ∧ t.maps = s.maps

/-- R61, R67. No word and no cycle attaches, detaches, moves or replaces a memory-mapped device, and none
touches a port-mapped device.
Spec decisions: D22 (log entry 13). -/
def Obligations.DevicesStayAttachedAndPortsUntouched : Prop :=
  (∀ (w : Word) (s t : State), executeWord w s = .next t →
      t.attachment = s.attachment ∧ t.ports = s.ports) ∧
    ∀ s t : State, step s = .next t → t.attachment = s.attachment ∧ t.ports = s.ports

/-! ### Encoding -/

/-- Decoding the encoding of any well-formed instruction gives it back (R81 to R90).
Spec decisions: D24 to D27, D30, D34, D37 to D41 (log entry 13). -/
def Obligations.DecodeOfEncodeIsIdentity : Prop :=
  ∀ i : Instr, i.wellFormed = true → decode (encode i) = .ok i

/-- Whatever a word decodes to is well formed, and encodes to that word with its ignored bits 0: no bit
that a format uses is dropped (R81 to R91).
Spec decisions: D23, D24 to D27, D30, D34, D36 to D41 (log entry 13). -/
def Obligations.EncodeOfDecodeIsTheWord : Prop :=
  ∀ (w : Word) (i : Instr), decode w = .ok i → i.wellFormed = true ∧ encode i = w &&& ~~~ignoredBits w

/-- R91. Words that differ only in bits 11:6 and 0 of the ALU register form, bits 11:5 of
branch-register, or bits 6:5 of the coprocessor exchange decode alike, and execute alike in every state.
Every other format uses all 32 bits: two different words of it never decode to one instruction. The groups
11110 and 11111 have no format.
Spec decisions: D23 (log entry 13). -/
def Obligations.IgnoredBitsAreNotChecked : Prop :=
  (∀ (w v m : Word),
      ((w >>> 27 = 0#32 ∧ w.getLsbD 1 = false ∧ m = 0x00000FC1#32) ∨
        (w >>> 27 = 13#32 ∧ m = 0x00000FE0#32) ∨ (w >>> 27 = 14#32 ∧ m = 0x00000060#32)) →
      w &&& ~~~m = v &&& ~~~m →
      (∀ i : Instr, decode w = .ok i ↔ decode v = .ok i) ∧
        ∀ s : State, executeWord w s = executeWord v s) ∧
    ∀ (w v : Word) (i : Instr), ¬(w >>> 27 = 0#32 ∧ w.getLsbD 1 = false) → w >>> 27 ≠ 13#32 →
      w >>> 27 ≠ 14#32 → w >>> 27 ≠ 30#32 → w >>> 27 ≠ 31#32 → decode w = .ok i → decode v = .ok i → w = v

/-- Words of the spec's own examples decode to the instructions they stand for (R106, R128, R136, R145,
R155, R164, R165, R168, R169, R173, R147).
Spec decisions: D24 to D27, D30, D34, D37 to D41 (log entry 13). -/
def Obligations.ExampleWordsDecode : Prop :=
  decode 0x00C22000#32 = .ok (.add 3#5 1#5 2#5) ∧
    decode 0x00FFFFC3#32 = .ok (.addImm 3#5 0xFFFF#16 true) ∧
    decode 0x10440011#32 = .ok (.beq 1#5 2#5 8#16 true) ∧
    decode 0xA045FFE0#32 = .ok (.bneU 1#5 2#5 0xFFF0#16 false) ∧
    decode 0x68443007#32 = .ok (.jeq 1#5 2#5 3#5 true true) ∧
    decode 0x70C01200#32 = .ok (.mtcr 3#5 1 4) ∧
    decode 0x7E123456#32 = .ok (.swe 0x123456#24) ∧
    decode 0x80C22240#32 = .ok (.ldW 3#5 (.scaledAdd 1#5 2#5 4)) ∧
    decode 0x80C2008C#32 = .ok (.stB 3#5 (.immAdd 1#5 1#10)) ∧
    decode 0x80C22F92#32 = .ok (.leaB 3#5 (.shiftedAdd 1#5 2#5 31)) ∧
    decode 0x88448D10#32 = .ok (.li 1#5 0x1234#16 false 16) ∧
    decode 0xA8C3FFFF#32 = .ok (.sne 3#5 1#5 0xFFFF#16 true) ∧
    decode 0xF0000000#32 = .ok .cpi0

/-- R94. Executing a word of one of the six reserved groups raises ILLEGAL_INSTRUCTION; the word writes
nothing else. -/
def Obligations.ReservedGroupsRaiseIllegal : Prop :=
  ∀ (w : Word) (s : State),
    (w >>> 27 = 0b00001#32 ∨ w >>> 27 = 0b00011#32 ∨ w >>> 27 = 0b00101#32 ∨ w >>> 27 = 0b00111#32 ∨
      w >>> 27 = 0b01001#32 ∨ w >>> 27 = 0b01011#32) →
    AnswersRaising (executeWord w s) s 0x07#8 0#24

/-- R95, R96. Executing these words raises ILLEGAL_INSTRUCTION and does nothing else: groups 11110 and
11111 whatever their other 27 bits, the open-bus word among them; branch-register condition 0 or 7;
coprocessor operation 2 to 31; system sub-operation 1 to 4 and 7; load/store operation 3, size 3, mode 6
or 7.
Spec decisions: D27, D34, D36, D37, D40 (log entry 13). -/
def Obligations.ReservedFieldsRaiseIllegal : Prop :=
  (∀ (w : Word) (s : State),
      (w >>> 27 = 0b11110#32 ∨ w >>> 27 = 0b11111#32 ∨
        (w >>> 27 = 0b01101#32 ∧ (w.extractLsb' 2 3 = 0#3 ∨ w.extractLsb' 2 3 = 7#3)) ∨
        (w >>> 27 = 0b01110#32 ∧ 2 ≤ (w.extractLsb' 0 5).toNat) ∨
        (w >>> 27 = 0b01111#32 ∧
          ((1 ≤ (w.extractLsb' 24 3).toNat ∧ (w.extractLsb' 24 3).toNat ≤ 4) ∨
            w.extractLsb' 24 3 = 7#3)) ∨
        (w >>> 27 = 0b10000#32 ∧
          (w.extractLsb' 3 2 = 3#2 ∨ w.extractLsb' 5 2 = 3#2 ∨ 6 ≤ (w.extractLsb' 0 3).toNat))) →
      AnswersRaising (executeWord w s) s 0x07#8 0#24) ∧
    0xFFFFFFFF#32 >>> 27 = 0b11111#32

/-! ### ALU -/

/-- The 16-bit immediates as words (R93): with `s` set, `sext_32`, the two's complement value modulo 2^32;
with `s` clear, `zext_32`, the unsigned value. -/
def Obligations.ImmediatesExtend : Prop :=
  ∀ imm16 : BitVec 16,
    extendImm16 imm16 true = BitVec.ofInt 32 imm16.toInt ∧
      extendImm16 imm16 false = BitVec.ofNat 32 imm16.toNat

/-- `add`, `sub`, `mul`, `mac`, register and immediate form: the result modulo 2^32 is the one register
write (R102 to R104, R106 to R109).
Spec decisions: D29, D30 (log entry 13). -/
def Obligations.AddSubMulMacWriteResult : Prop :=
  ∀ (rd rs0 rs1 : RegNum) (imm16 : BitVec 16) (sx : Bool) (s : State),
    CompletesWriting (exec (.add rd rs0 rs1) s) s rd
        (BitVec.ofNat 32 ((s.reg rs0).toNat + (s.reg rs1).toNat)) ∧
      CompletesWriting (exec (.addImm rd imm16 sx) s) s rd
        (BitVec.ofNat 32 ((s.reg rd).toNat + (extendImm16 imm16 sx).toNat)) ∧
      CompletesWriting (exec (.sub rd rs0 rs1) s) s rd
        (BitVec.ofInt 32 ((s.reg rs0).toNat - (s.reg rs1).toNat)) ∧
      CompletesWriting (exec (.subImm rd imm16 sx) s) s rd
        (BitVec.ofInt 32 ((s.reg rd).toNat - (extendImm16 imm16 sx).toNat)) ∧
      CompletesWriting (exec (.mul rd rs0 rs1) s) s rd
        (BitVec.ofNat 32 ((s.reg rs0).toNat * (s.reg rs1).toNat)) ∧
      CompletesWriting (exec (.mulImm rd imm16 sx) s) s rd
        (BitVec.ofNat 32 ((s.reg rd).toNat * (extendImm16 imm16 sx).toNat)) ∧
      CompletesWriting (exec (.mac rd rs0 rs1) s) s rd
        (BitVec.ofNat 32 ((s.reg rd).toNat + (s.reg rs0).toNat * (s.reg rs1).toNat)) ∧
      CompletesWriting (exec (.macImm rd imm16 sx) s) s rd
        (BitVec.ofNat 32 ((s.reg rd).toNat * ((extendImm16 imm16 sx).toNat + 1)))

/-- `div` and `mod`, both forms, with a divisor that is not 0: the unsigned quotient and remainder (R110,
R111).
Spec decisions: D29, D30 (log entry 13). -/
def Obligations.DivModWriteResult : Prop :=
  ∀ (rd rs0 rs1 : RegNum) (imm16 : BitVec 16) (sx : Bool) (s : State),
    (s.reg rs1 ≠ 0#32 →
        CompletesWriting (exec (.div rd rs0 rs1) s) s rd
            (BitVec.ofNat 32 ((s.reg rs0).toNat / (s.reg rs1).toNat)) ∧
          CompletesWriting (exec (.mod rd rs0 rs1) s) s rd
            (BitVec.ofNat 32 ((s.reg rs0).toNat % (s.reg rs1).toNat))) ∧
      (imm16 ≠ 0#16 →
        CompletesWriting (exec (.divImm rd imm16 sx) s) s rd
            (BitVec.ofNat 32 ((s.reg rd).toNat / (extendImm16 imm16 sx).toNat)) ∧
          CompletesWriting (exec (.modImm rd imm16 sx) s) s rd
            (BitVec.ofNat 32 ((s.reg rd).toNat % (extendImm16 imm16 sx).toNat)))

/-- `div` and `mod`, both forms, with divisor 0 raise ARITHMETIC and write no register, also when the
destination is register 0 (R105, R110, R111).
Spec decisions: D30, D33 (log entry 13). -/
def Obligations.DivModByZeroRaiseArithmetic : Prop :=
  ∀ (rd rs0 rs1 : RegNum) (sx : Bool) (s : State),
    (s.reg rs1 = 0#32 →
        AnswersRaising (exec (.div rd rs0 rs1) s) s 0x10#8 0#24 ∧
          AnswersRaising (exec (.mod rd rs0 rs1) s) s 0x10#8 0#24) ∧
      AnswersRaising (exec (.divImm rd 0#16 sx) s) s 0x10#8 0#24 ∧
      AnswersRaising (exec (.modImm rd 0#16 sx) s) s 0x10#8 0#24

/-- `and`, `or`, `xor`, both forms, bit by bit (R112 to R114).
Spec decisions: D29, D30 (log entry 13). -/
def Obligations.BitwiseOpsWriteResult : Prop :=
  ∀ (rd rs0 rs1 : RegNum) (imm16 : BitVec 16) (sx : Bool) (s : State),
    CompletesWriting (exec (.and rd rs0 rs1) s) s rd (s.reg rs0 &&& s.reg rs1) ∧
      CompletesWriting (exec (.andImm rd imm16 sx) s) s rd (s.reg rd &&& extendImm16 imm16 sx) ∧
      CompletesWriting (exec (.or rd rs0 rs1) s) s rd (s.reg rs0 ||| s.reg rs1) ∧
      CompletesWriting (exec (.orImm rd imm16 sx) s) s rd (s.reg rd ||| extendImm16 imm16 sx) ∧
      CompletesWriting (exec (.xor rd rs0 rs1) s) s rd (s.reg rs0 ^^^ s.reg rs1) ∧
      CompletesWriting (exec (.xorImm rd imm16 sx) s) s rd (s.reg rd ^^^ extendImm16 imm16 sx)

/-- `lsl`, `lsr`, `asr`, both forms: the amount is taken modulo 32; `lsr` fills with zeros, `asr` with the
sign (R115 to R117).
Spec decisions: D29, D30, D31 (log entry 13). -/
def Obligations.ShiftsWriteResult : Prop :=
  ∀ (rd rs0 rs1 : RegNum) (imm16 : BitVec 16) (sx : Bool) (s : State),
    CompletesWriting (exec (.lsl rd rs0 rs1) s) s rd
        (BitVec.ofNat 32 ((s.reg rs0).toNat * 2 ^ ((s.reg rs1).toNat % 32))) ∧
      CompletesWriting (exec (.lslImm rd imm16 sx) s) s rd
        (BitVec.ofNat 32 ((s.reg rd).toNat * 2 ^ ((extendImm16 imm16 sx).toNat % 32))) ∧
      CompletesWriting (exec (.lsr rd rs0 rs1) s) s rd
        (BitVec.ofNat 32 ((s.reg rs0).toNat / 2 ^ ((s.reg rs1).toNat % 32))) ∧
      CompletesWriting (exec (.lsrImm rd imm16 sx) s) s rd
        (BitVec.ofNat 32 ((s.reg rd).toNat / 2 ^ ((extendImm16 imm16 sx).toNat % 32))) ∧
      CompletesWriting (exec (.asr rd rs0 rs1) s) s rd
        (BitVec.ofInt 32 ((s.reg rs0).toInt / 2 ^ ((s.reg rs1).toNat % 32))) ∧
      CompletesWriting (exec (.asrImm rd imm16 sx) s) s rd
        (BitVec.ofInt 32 ((s.reg rd).toInt / 2 ^ ((extendImm16 imm16 sx).toNat % 32)))

/-- `sextb` and `sexth`, both forms: the low 8 or 16 bits of the first operand read as two's complement;
the second operand has no effect (R118, R119).
Spec decisions: D29, D30, D32 (log entry 13). -/
def Obligations.SignExtensionsWriteResult : Prop :=
  ∀ (rd rs0 rs1 : RegNum) (imm16 : BitVec 16) (sx : Bool) (s : State),
    CompletesWriting (exec (.sextb rd rs0 rs1) s) s rd
        (BitVec.ofInt 32 ((s.reg rs0).extractLsb' 0 8).toInt) ∧
      CompletesWriting (exec (.sextbImm rd imm16 sx) s) s rd
        (BitVec.ofInt 32 ((s.reg rd).extractLsb' 0 8).toInt) ∧
      CompletesWriting (exec (.sexth rd rs0 rs1) s) s rd
        (BitVec.ofInt 32 ((s.reg rs0).extractLsb' 0 16).toInt) ∧
      CompletesWriting (exec (.sexthImm rd imm16 sx) s) s rd
        (BitVec.ofInt 32 ((s.reg rd).extractLsb' 0 16).toInt)

/-- `rol` and `ror`, both forms: bit `j` of the result is the bit of the first operand that many places
below, or above, around the word; the amount is taken modulo 32 (R120, R121).
Spec decisions: D29, D30 (log entry 13). -/
def Obligations.RotatesWriteResult : Prop :=
  ∀ (rd rs0 rs1 : RegNum) (imm16 : BitVec 16) (sx : Bool) (s : State),
    (∃ v : Word, CompletesWriting (exec (.rol rd rs0 rs1) s) s rd v ∧
        ∀ j : Nat, j < 32 →
          v.getLsbD j = (s.reg rs0).getLsbD ((j + 32 - (s.reg rs1).toNat % 32) % 32)) ∧
      (∃ v : Word, CompletesWriting (exec (.rolImm rd imm16 sx) s) s rd v ∧
        ∀ j : Nat, j < 32 →
          v.getLsbD j = (s.reg rd).getLsbD ((j + 32 - (extendImm16 imm16 sx).toNat % 32) % 32)) ∧
      (∃ v : Word, CompletesWriting (exec (.ror rd rs0 rs1) s) s rd v ∧
        ∀ j : Nat, j < 32 →
          v.getLsbD j = (s.reg rs0).getLsbD ((j + (s.reg rs1).toNat % 32) % 32)) ∧
      (∃ v : Word, CompletesWriting (exec (.rorImm rd imm16 sx) s) s rd v ∧
        ∀ j : Nat, j < 32 →
          v.getLsbD j = (s.reg rd).getLsbD ((j + (extendImm16 imm16 sx).toNat % 32) % 32))

/-- Rotating right and then left by the same amount gives the value back, instruction after instruction,
in both orders (R120).
Spec decisions: D29 (log entry 13). -/
def Obligations.RotatesUndoEachOther : Prop :=
  ∀ (rd rs0 rs1 : RegNum) (s : State), rd ≠ 0#5 → rd ≠ rs1 → s.reg 0#5 = 0#32 →
    (∃ t u : State, exec (.ror rd rs0 rs1) s = .next t ∧ exec (.rol rd rd rs1) t = .next u ∧
        u.reg rd = s.reg rs0) ∧
      ∃ t u : State, exec (.rol rd rs0 rs1) s = .next t ∧ exec (.ror rd rd rs1) t = .next u ∧
        u.reg rd = s.reg rs0

/-! ### Branches -/

/-- The six branch-immediate instructions with a signed offset: the unsigned comparison decides, the
target is `x[31]` plus the sign-extended byte offset, the link takes the old `x[31]` (R123 to R133).
Spec decisions: D24, D25, D26, D28 (log entry 13). -/
def Obligations.SignedOffsetBranches : Prop :=
  ∀ (ra rb : RegNum) (imm16 : BitVec 16) (l : Bool) (s : State),
    let target := BitVec.ofInt 32 ((s.reg pcNum).toNat + imm16.toInt)
    CompletesBranching (exec (.beq ra rb imm16 l) s) s ((s.reg ra).toNat = (s.reg rb).toNat) target l ∧
      CompletesBranching (exec (.bne ra rb imm16 l) s) s ((s.reg ra).toNat ≠ (s.reg rb).toNat) target l ∧
      CompletesBranching (exec (.bgt ra rb imm16 l) s) s ((s.reg ra).toNat > (s.reg rb).toNat) target l ∧
      CompletesBranching (exec (.bge ra rb imm16 l) s) s ((s.reg ra).toNat ≥ (s.reg rb).toNat) target l ∧
      CompletesBranching (exec (.blt ra rb imm16 l) s) s ((s.reg ra).toNat < (s.reg rb).toNat) target l ∧
      CompletesBranching (exec (.ble ra rb imm16 l) s) s ((s.reg ra).toNat ≤ (s.reg rb).toNat) target l

/-- The six branch-immediate instructions with an unsigned offset: as the signed ones, with the
zero-extended byte offset (R123 to R133).
Spec decisions: D24, D25, D26, D28 (log entry 13). -/
def Obligations.UnsignedOffsetBranches : Prop :=
  ∀ (ra rb : RegNum) (imm16 : BitVec 16) (l : Bool) (s : State),
    let target := BitVec.ofNat 32 ((s.reg pcNum).toNat + imm16.toNat)
    CompletesBranching (exec (.beqU ra rb imm16 l) s) s ((s.reg ra).toNat = (s.reg rb).toNat) target l ∧
      CompletesBranching (exec (.bneU ra rb imm16 l) s) s ((s.reg ra).toNat ≠ (s.reg rb).toNat) target l ∧
      CompletesBranching (exec (.bgtU ra rb imm16 l) s) s ((s.reg ra).toNat > (s.reg rb).toNat) target l ∧
      CompletesBranching (exec (.bgeU ra rb imm16 l) s) s ((s.reg ra).toNat ≥ (s.reg rb).toNat) target l ∧
      CompletesBranching (exec (.bltU ra rb imm16 l) s) s ((s.reg ra).toNat < (s.reg rb).toNat) target l ∧
      CompletesBranching (exec (.bleU ra rb imm16 l) s) s ((s.reg ra).toNat ≤ (s.reg rb).toNat) target l

/-- The six branch-register instructions: the target is `x[rt]`, or `x[31] + x[rt]` modulo 2^32 in the
relative form, from the registers before any write (R123 to R125, R134, R136 to R141).
Spec decisions: D24, D25, D27, D28 (log entry 13). -/
def Obligations.RegisterBranches : Prop :=
  ∀ (ra rb rt : RegNum) (r l : Bool) (s : State),
    let target :=
      if r = true then BitVec.ofNat 32 ((s.reg pcNum).toNat + (s.reg rt).toNat) else s.reg rt
    CompletesBranching (exec (.jeq ra rb rt r l) s) s ((s.reg ra).toNat = (s.reg rb).toNat) target l ∧
      CompletesBranching (exec (.jne ra rb rt r l) s) s ((s.reg ra).toNat ≠ (s.reg rb).toNat) target l ∧
      CompletesBranching (exec (.jgt ra rb rt r l) s) s ((s.reg ra).toNat > (s.reg rb).toNat) target l ∧
      CompletesBranching (exec (.jge ra rb rt r l) s) s ((s.reg ra).toNat ≥ (s.reg rb).toNat) target l ∧
      CompletesBranching (exec (.jlt ra rb rt r l) s) s ((s.reg ra).toNat < (s.reg rb).toNat) target l ∧
      CompletesBranching (exec (.jle ra rb rt r l) s) s ((s.reg ra).toNat ≤ (s.reg rb).toNat) target l

/-- What executes in the two cycles after any flow transfer of the executed instruction, when the next fetch
does not fail (R199): a taken branch, an instruction that writes r31, or one that raises. With FOFT 0 the
two words that were in slots 0 and 1 execute; with FOFT 1 two bubbles; then the word at the target. An
instruction that makes no flow transfer, an untaken branch among them, leaves the slots as they are.
Spec decisions: D3, D4 (log entry 13). -/
def Obligations.DelaySlotsFollowFoft : Prop :=
  (∀ (s : State) (o : Host.Outcome State Fault Refusal), TransfersFlow s o →
      ∃ t : State, o = .next t ∧ PipeAfterFlow s t ∧
        ∀ pa : Word, t.translate (t.reg pcNum) .exec .execute = .ok pa →
          ∃ u : State,
            step t = executeWord (if s.cr0.getLsbD 3 = true then 0#32 else s.pipe1) u ∧
              u.pipe1 = (if s.cr0.getLsbD 3 = true then 0#32 else s.pipe0) ∧
              u.pipe0 = (t.busRead pa .execute).1) ∧
    ∀ (s : State) (i : Instr), ¬FlowTransfer s i → ∃ t : State, exec i s = .next t ∧ PipeKept s t

/-! ### Coprocessor registers -/

/-- R142. The resolver's table: COP0 has registers 0 to 4, COP4 has MMUCR and the 128 words of the active
table, no other coprocessor and no other register exists.
Spec decisions: D13, D14 (log entry 13). -/
def Obligations.ResolverTable : Prop :=
  ∀ s : State,
    s.resolve 0 0 = some .cr0 ∧ s.resolve 0 1 = some .cr1 ∧ s.resolve 0 2 = some .cause ∧
      s.resolve 0 3 = some .handler ∧ s.resolve 0 4 = some .epc ∧
      (∀ creg : Nat, 5 ≤ creg → s.resolve 0 creg = none) ∧
      s.resolve 4 0 = some .mmucr ∧
      (∀ (e : Fin 32),
        s.resolve 4 (4 * e.val + 1) = some (.mapWord (s.mmucr.extractLsb' 8 2) e .pbase) ∧
          s.resolve 4 (4 * e.val + 2) = some (.mapWord (s.mmucr.extractLsb' 8 2) e .vbase) ∧
          s.resolve 4 (4 * e.val + 3) = some (.mapWord (s.mmucr.extractLsb' 8 2) e .size) ∧
          s.resolve 4 (4 * e.val + 4) = some (.mapWord (s.mmucr.extractLsb' 8 2) e .attr)) ∧
      (∀ creg : Nat, 129 ≤ creg → s.resolve 4 creg = none) ∧
      ∀ cnum creg : Nat, cnum ≠ 0 → cnum ≠ 4 → s.resolve cnum creg = none

/-- `mtcr` of a register that exists stores the whole of `x[rd]` in its cell, and changes no other cell of
the coprocessor space, no register, no pipeline slot, not the privilege level and no device (R143,
R145).
Spec decisions: D34, D35 (log entry 13). -/
def Obligations.MtcrStoresTheCell : Prop :=
  ∀ (rd : RegNum) (creg cnum : Nat) (c : CopCell) (s : State), s.resolve cnum creg = some c →
    ∃ t : State, exec (.mtcr rd creg cnum) s = .next t ∧ t.readCell c = s.reg rd ∧
      (∀ d : CopCell, d ≠ c → t.readCell d = s.readCell d) ∧ RegsKept s t ∧ PipeKept s t ∧
      t.pl = s.pl ∧ NoDeviceCall s t

/-- `mfcr` of a register that exists writes its cell to `x[rd]` and changes nothing else; `rd = 31` is a
flow transfer (R143, R146).
Spec decisions: D34 (log entry 13). -/
def Obligations.MfcrReadsTheCell : Prop :=
  ∀ (rd : RegNum) (creg cnum : Nat) (c : CopCell) (s : State), s.resolve cnum creg = some c →
    CompletesWriting (exec (.mfcr rd creg cnum) s) s rd (s.readCell c)

/-- `mtcr` and `mfcr` of a register that does not exist raise INVALID_COP and write neither the cell nor
the register (R143).
Spec decisions: D34, D38 (log entry 13). -/
def Obligations.MissingCopRegisterRaises : Prop :=
  ∀ (rd : RegNum) (creg cnum : Nat) (s : State), s.resolve cnum creg = none →
    AnswersRaising (exec (.mtcr rd creg cnum) s) s 0x08#8 0#24 ∧
      AnswersRaising (exec (.mfcr rd creg cnum) s) s 0x08#8 0#24

/-- The return from an exception is `mfcr r31, cop0.4`, the word 0x77C04001: EPC goes to `x[31]`, the
pipeline is flushed under FOFT, and neither PL nor MMUCR nor CAUSE nor any other register is restored
(R184).
Spec decisions: D45 (log entry 13). -/
def Obligations.ExceptionReturnRestoresOnlyThePc : Prop :=
  decode 0x77C04001#32 = .ok (.mfcr 31#5 4 0) ∧
    ∀ s : State,
      ∃ t : State, executeWord 0x77C04001#32 s = .next t ∧ t.reg pcNum = s.epc ∧ t.reg 0#5 = 0#32 ∧
        (∀ r : RegNum, r ≠ 0#5 → r ≠ pcNum → t.reg r = s.reg r) ∧ PipeAfterFlow s t ∧
        ControlKept s t ∧ NoDeviceCall s t

/-- A write to CR0 governs the flush of any flow transfer that the next instruction makes, a taken branch, a
write of r31 or an exception; the `mtcr` itself flushes nothing (R204).
Spec decisions: D6, D43 (log entry 13). -/
def Obligations.FoftWriteGovernsTheNextBranch : Prop :=
  ∀ (rd : RegNum) (s : State),
    ∃ t : State, exec (.mtcr rd 0 0) s = .next t ∧ PipeKept s t ∧
      ∀ o : Host.Outcome State Fault Refusal, TransfersFlow t o →
        ∃ u : State, o = .next u ∧ ((s.reg rd).getLsbD 3 = true → PipeFlushed u) ∧
          ((s.reg rd).getLsbD 3 = false → PipeKept s u)

/-! ### Exceptions -/

/-- The code of every cause (R178).
Spec decisions: D10, D33, D37, D38 (log entry 13). -/
def Obligations.CauseCodeTable : Prop :=
  causeCode .syscall = 0x00#8 ∧ causeCode .debug = 0x01#8 ∧ causeCode .swe = 0x02#8 ∧
    causeCode .tpl0 = 0x03#8 ∧ causeCode .tpl1 = 0x04#8 ∧ causeCode .tpl2 = 0x05#8 ∧
    causeCode .tpl3 = 0x06#8 ∧ causeCode .illegalInstruction = 0x07#8 ∧
    causeCode .invalidCop = 0x08#8 ∧ causeCode .invalidTrapLevel = 0x09#8 ∧
    causeCode .noMapping = 0x0A#8 ∧ causeCode .protRead = 0x0B#8 ∧ causeCode .protWrite = 0x0C#8 ∧
    causeCode .protExec = 0x0D#8 ∧ causeCode .fetchMisalign = 0x0E#8 ∧
    causeCode .dataMisalign = 0x0F#8 ∧ causeCode .arithmetic = 0x10#8 ∧ causeCode .reset = 0xFF#8

/-- R179. Exception entry: CAUSE takes the immediate and the code, EPC the old `x[31]`, `x[31]` HANDLER,
PL drops by one and not below 0, RPT moves AMI to the new level, DOP0 clears EN at level 0, EOP1 sets EN
at level 1, FOFT flushes; nothing else changes.
Spec decisions: D3, D7, D46 (log entry 13). -/
def Obligations.DispatcherEntersTheHandler : Prop :=
  ∀ (c : Cause) (imm24 : BitVec 24) (s : State),
    Dispatched s (s.dispatch c imm24) (causeCode c) imm24 ∧
      ∀ r : RegNum, r ≠ pcNum → (s.dispatch c imm24).reg r = s.reg r

/-- `syscall`, `debug` and `swe` enter the dispatcher with their own code and record their immediate; that
is their whole effect (R148, R149, R154, R155).
Spec decisions: D37, D38, D49 (log entry 13). -/
def Obligations.SystemTrapsEnterTheDispatcher : Prop :=
  ∀ (imm24 : BitVec 24) (s : State),
    AnswersRaising (exec (.syscall imm24) s) s 0x00#8 imm24 ∧
      AnswersRaising (exec (.debug imm24) s) s 0x01#8 imm24 ∧
      AnswersRaising (exec (.swe imm24) s) s 0x02#8 imm24

/-- `tpl0` to `tpl3`, `cpi0` and `cpi1` raise ILLEGAL_INSTRUCTION; no immediate is recorded (R147, R150 to
R153).
Spec decisions: D36, D37 (log entry 13). -/
def Obligations.TrapLevelOpsRaiseIllegal : Prop :=
  ∀ (imm24 : BitVec 24) (s : State),
    AnswersRaising (exec (.tpl0 imm24) s) s 0x07#8 0#24 ∧
      AnswersRaising (exec (.tpl1 imm24) s) s 0x07#8 0#24 ∧
      AnswersRaising (exec (.tpl2 imm24) s) s 0x07#8 0#24 ∧
      AnswersRaising (exec (.tpl3 imm24) s) s 0x07#8 0#24 ∧
      AnswersRaising (exec .cpi0 s) s 0x07#8 0#24 ∧ AnswersRaising (exec .cpi1 s) s 0x07#8 0#24

/-! ### Translation and the bus -/

/-- R54. An entry matches `va` exactly when `VBASE <= va < VBASE + SIZE` over the unbounded integers: size
0 matches nothing, a range past 2^32 matches up to 0xFFFFFFFF and does not wrap; the physical address is
taken modulo 2^32.
Spec decisions: D15 (log entry 13). -/
def Obligations.EntryMatchIsUnbounded : Prop :=
  ∀ (e : MapEntry) (va : Word),
    (e.covers va = true ↔ e.vbase.toNat ≤ va.toNat ∧ va.toNat < e.vbase.toNat + e.size.toNat) ∧
      (e.size = 0#32 → e.covers va = false) ∧
      (va.toNat < e.vbase.toNat → e.covers va = false) ∧
      (2 ^ 32 ≤ e.vbase.toNat + e.size.toNat → e.vbase.toNat ≤ va.toNat → e.covers va = true) ∧
      (e.covers va = true →
        (e.physical va).toNat = (e.pbase.toNat + (va.toNat - e.vbase.toNat)) % 2 ^ 32)

/-- R53. With EN clear the virtual address passes through: no table is read and no mapping or protection
fault arises; a fetch is still checked for alignment, data accesses only under XMA. -/
def Obligations.MmuOffPassesThrough : Prop :=
  ∀ (s : State) (va : Word) (acc : AccessType), s.mmucr.getLsbD 0 = false →
    s.translate va acc .byte = .ok va ∧
      s.translate va acc .execute = (if va.toNat % 4 = 0 then .ok va else .error .fetchMisalign) ∧
      s.translate va acc .short =
        (if s.mmucr.getLsbD 4 = true ∧ va.toNat % 2 ≠ 0 then .error .dataMisalign else .ok va) ∧
      s.translate va acc .long =
        (if s.mmucr.getLsbD 4 = true ∧ va.toNat % 4 ≠ 0 then .error .dataMisalign else .ok va)

/-- R52, R55, R58. With EN set: no matching entry of the active table raises NO_MAPPING; otherwise the
matching entry of least index decides, its permission first, then the alignment of the physical
address.
Spec decisions: D11, D12, D15, D16 (log entry 13). -/
def Obligations.MmuOnTranslatesByFirstMatch : Prop :=
  ∀ (s : State) (va : Word) (acc : AccessType) (sz : SizeCode), s.mmucr.getLsbD 0 = true →
    let m := s.mmucr.extractLsb' 8 2
    ((∀ j : Fin 32, (s.entry m j).covers va = false) → s.translate va acc sz = .error .noMapping) ∧
      ∀ i : Fin 32, (s.entry m i).covers va = true →
        (∀ j : Fin 32, j < i → (s.entry m j).covers va = false) →
        let e := s.entry m i
        let pa := e.pbase + (va - e.vbase)
        s.translate va acc sz =
          (if acc = .read ∧ e.attr.getLsbD 0 = false then .error .protRead
            else if acc = .write ∧ e.attr.getLsbD 1 = false then .error .protWrite
            else if acc = .exec ∧ e.attr.getLsbD 2 = false then .error .protExec
            else if sz = .execute ∧ pa.toNat % 4 ≠ 0 then .error .fetchMisalign
            else if s.mmucr.getLsbD 4 = true ∧ sz = .short ∧ pa.toNat % 2 ≠ 0 then .error .dataMisalign
            else if s.mmucr.getLsbD 4 = true ∧ sz = .long ∧ pa.toNat % 4 ≠ 0 then .error .dataMisalign
            else .ok pa)

/-- The table that MMUCR.AMI selects is the only one consulted, and the privilege level is not: two states
with the same MMUCR and the same active table translate alike (R48, R46). -/
def Obligations.OnlyTheActiveTableIsConsulted : Prop :=
  ∀ (s s' : State), s'.mmucr = s.mmucr →
    (∀ i : Fin 32, s'.entry (s.mmucr.extractLsb' 8 2) i = s.entry (s.mmucr.extractLsb' 8 2) i) →
    ∀ (va : Word) (acc : AccessType) (sz : SizeCode), s'.translate va acc sz = s.translate va acc sz

/-- R64. A read of an address that no device owns answers 0xFFFFFFFF for every size code, unmasked, and
changes nothing; a fetch from it yields 0xFFFFFFFF, which raises ILLEGAL_INSTRUCTION when it executes.
Spec decisions: D18, D36 (log entry 13). -/
def Obligations.OpenBusReadsAllOnes : Prop :=
  ∀ (s : State) (pa : Word), (∀ d ∈ s.devices, ¬(d.start ≤ pa.toNat ∧ pa.toNat < d.stop)) →
    (∀ sz : SizeCode, s.busRead pa sz = (0xFFFFFFFF#32, s)) ∧
      ∀ u : State, AnswersRaising (executeWord (s.busRead pa .execute).1 u) u 0x07#8 0#24

/-- R62, R63. A read goes to the first attached device whose range holds the address, once, with the local
address `pa - start` and the size code; the answer is masked for byte and short and not for long and
execute; no other device is touched. Where no device owns the address the answer is 0xFFFFFFFF.
Spec decisions: D19 (log entry 13). -/
def Obligations.ReadsGoToTheFirstOwner : Prop :=
  ∀ (s : State) (pa : Word),
    ((∀ d ∈ s.devices, ¬(d.start ≤ pa.toNat ∧ pa.toNat < d.stop)) →
        ∀ sz : SizeCode, (s.busRead pa sz).1 = 0xFFFFFFFF#32) ∧
      ∀ (before after : List MemDevice) (d : MemDevice), s.devices = before ++ d :: after →
        (∀ b ∈ before, ¬(b.start ≤ pa.toNat ∧ pa.toNat < b.stop)) → d.start ≤ pa.toNat →
        pa.toNat < d.stop →
        let local_ := BitVec.ofNat 32 (pa.toNat - d.start)
        ∀ sz : SizeCode,
          s.busRead pa sz =
            ((match sz with
              | .byte => (d.read local_ sz).1 &&& 0x000000FF#32
              | .short => (d.read local_ sz).1 &&& 0x0000FFFF#32
              | .long => (d.read local_ sz).1
              | .execute => (d.read local_ sz).1),
              { s with devices := before ++ (d.read local_ sz).2 :: after })

/-- R62, R65. A write goes to the first attached device whose range holds the address, once, with the local
address, the size code and the value truncated to the access width; where no device owns the address it
is dropped.
Spec decisions: D19 (log entry 13). -/
def Obligations.WritesGoToTheFirstOwner : Prop :=
  ∀ (s : State) (pa v : Word),
    ((∀ d ∈ s.devices, ¬(d.start ≤ pa.toNat ∧ pa.toNat < d.stop)) →
        ∀ sz : SizeCode, s.busWrite pa sz v = s) ∧
      ∀ (before after : List MemDevice) (d : MemDevice), s.devices = before ++ d :: after →
        (∀ b ∈ before, ¬(b.start ≤ pa.toNat ∧ pa.toNat < b.stop)) → d.start ≤ pa.toNat →
        pa.toNat < d.stop →
        let local_ := BitVec.ofNat 32 (pa.toNat - d.start)
        s.busWrite pa .byte v =
            { s with devices := before ++ d.write local_ (BitVec.ofNat 32 (v.toNat % 2 ^ 8)) .byte :: after } ∧
          s.busWrite pa .short v =
            { s with devices := before ++ d.write local_ (BitVec.ofNat 32 (v.toNat % 2 ^ 16)) .short :: after } ∧
          s.busWrite pa .long v = { s with devices := before ++ d.write local_ v .long :: after }

/-- A RAM device is little-endian: a read of 1, 2 or 4 bytes is the consecutive bytes from the address on,
the lowest address in bits 7:0, at every alignment (R69, R73, D20).
Spec decisions: D17, D20 (log entry 13). -/
def Obligations.RamReadsAreLittleEndian : Prop :=
  ∀ (s : State) (pa : Word) (d : MemDevice) (cells : Memory), ownerOf s.devices pa = some d →
    d.body = .ram cells →
    let byteAt (k : Nat) : Byte := ramByte (d.stop - d.start) cells (pa.toNat - d.start + k)
    (s.busRead pa .byte).1 = 0#24 ++ byteAt 0 ∧
      (s.busRead pa .short).1 = 0#16 ++ byteAt 1 ++ byteAt 0 ∧
      (s.busRead pa .long).1 = byteAt 3 ++ byteAt 2 ++ byteAt 1 ++ byteAt 0 ∧
      (s.busRead pa .execute).1 = byteAt 3 ++ byteAt 2 ++ byteAt 1 ++ byteAt 0 ∧
      ∀ sz : SizeCode, (s.busRead pa sz).2 = s

/-- R66. The port dispatcher: the first port device that has the port number is called, once, by
membership, and no other; its answer is masked for byte and short and not for long and execute (R16, I19);
an unowned port reads 0xFFFFFFFF, unmasked, and drops writes. That a written value is passed whole, whatever
the size, is the model's choice (log entry 4).
Spec decisions: D22 (log entry 13). -/
def Obligations.PortsDispatchByMembership : Prop :=
  ∀ (s : State) (port : BitVec 16) (sz : SizeCode) (v : Word),
    ((∀ d ∈ s.ports, port ∉ d.ports) →
        s.portRead port sz = (0xFFFFFFFF#32, s) ∧ s.portWrite port sz v = s) ∧
      ∀ (before after : List PortDevice) (d : PortDevice), s.ports = before ++ d :: after →
        (∀ b ∈ before, port ∉ b.ports) → port ∈ d.ports →
        s.portRead port sz =
            ((match sz with
              | .byte => (d.read port sz).1 &&& 0x000000FF#32
              | .short => (d.read port sz).1 &&& 0x0000FFFF#32
              | .long => (d.read port sz).1
              | .execute => (d.read port sz).1),
              { s with ports := before ++ (d.read port sz).2 :: after }) ∧
          s.portWrite port sz v = { s with ports := before ++ d.write port v sz :: after }

/-! ### Loads and stores -/

/-- R158. The effective address of the six modes, modulo 2^32.
Spec decisions: D39 (log entry 13). -/
def Obligations.EffectiveAddressModes : Prop :=
  ∀ (s : State) (rb ri : RegNum) (sc : Nat) (imm10 : BitVec 10),
    s.effectiveAddress (.scaledAdd rb ri sc) =
        BitVec.ofNat 32 ((s.reg rb).toNat + (s.reg ri).toNat * sc) ∧
      s.effectiveAddress (.scaledSub rb ri sc) =
        BitVec.ofInt 32 ((s.reg rb).toNat - (s.reg ri).toNat * sc) ∧
      s.effectiveAddress (.shiftedAdd rb ri sc) =
        BitVec.ofNat 32 ((s.reg rb).toNat + (s.reg ri).toNat * 2 ^ sc % 2 ^ 32) ∧
      s.effectiveAddress (.shiftedSub rb ri sc) =
        BitVec.ofInt 32 ((s.reg rb).toNat - ((s.reg ri).toNat * 2 ^ sc % 2 ^ 32 : Nat)) ∧
      s.effectiveAddress (.immAdd rb imm10) = BitVec.ofNat 32 ((s.reg rb).toNat + imm10.toNat) ∧
      s.effectiveAddress (.immSub rb imm10) = BitVec.ofInt 32 ((s.reg rb).toNat - imm10.toNat)

/-- A load whose translation succeeds writes what the bus answers at the physical address to `x[rd]`, for
the three sizes (R159, R162 to R164).
Spec decisions: D21, D39 (log entry 13). -/
def Obligations.LoadsWriteTheBusValue : Prop :=
  ∀ (rd : RegNum) (addr : AddrMode) (s : State) (pa : Word),
    (s.translate (s.effectiveAddress addr) .read .byte = .ok pa →
        CompletesLoading (exec (.ldB rd addr) s) s rd pa .byte) ∧
      (s.translate (s.effectiveAddress addr) .read .short = .ok pa →
        CompletesLoading (exec (.ldH rd addr) s) s rd pa .short) ∧
      (s.translate (s.effectiveAddress addr) .read .long = .ok pa →
        CompletesLoading (exec (.ldW rd addr) s) s rd pa .long)

/-- A store whose translation succeeds writes the 1, 2 or 4 low bytes of `x[rd]` from the physical address
on, lowest address first, and changes no other byte, no register, no slot and no control state. The
storage of the RAM devices must be canonical (R165 to R167, R69, R73).
Spec decisions: D19, D20, D39 (log entry 13). -/
def Obligations.StoresWriteTheirBytes : Prop :=
  ∀ (rd : RegNum) (addr : AddrMode) (s : State) (pa : Word), s.wf = true →
    (s.translate (s.effectiveAddress addr) .write .byte = .ok pa →
        CompletesStoring (exec (.stB rd addr) s) s pa .byte 1 (s.reg rd)) ∧
      (s.translate (s.effectiveAddress addr) .write .short = .ok pa →
        CompletesStoring (exec (.stH rd addr) s) s pa .short 2 (s.reg rd)) ∧
      (s.translate (s.effectiveAddress addr) .write .long = .ok pa →
        CompletesStoring (exec (.stW rd addr) s) s pa .long 4 (s.reg rd))

/-- A load or store whose translation raises writes no register, calls no device, changes no byte of
memory, and enters the dispatcher with that cause (R59, R161, R181).
Spec decisions: D4 (log entry 13). -/
def Obligations.LoadAndStoreFaultsRaise : Prop :=
  ∀ (rd : RegNum) (addr : AddrMode) (s : State) (c : Cause),
    (s.translate (s.effectiveAddress addr) .read .byte = .error c →
        AnswersRaising (exec (.ldB rd addr) s) s (causeCode c) 0#24) ∧
      (s.translate (s.effectiveAddress addr) .read .short = .error c →
        AnswersRaising (exec (.ldH rd addr) s) s (causeCode c) 0#24) ∧
      (s.translate (s.effectiveAddress addr) .read .long = .error c →
        AnswersRaising (exec (.ldW rd addr) s) s (causeCode c) 0#24) ∧
      (s.translate (s.effectiveAddress addr) .write .byte = .error c →
        AnswersRaising (exec (.stB rd addr) s) s (causeCode c) 0#24) ∧
      (s.translate (s.effectiveAddress addr) .write .short = .error c →
        AnswersRaising (exec (.stH rd addr) s) s (causeCode c) 0#24) ∧
      (s.translate (s.effectiveAddress addr) .write .long = .error c →
        AnswersRaising (exec (.stW rd addr) s) s (causeCode c) 0#24)

/-- A load long after a store long at the same address, inside one RAM, gives the stored register back
(R75, R167).
Spec decisions: D20 (log entry 13). -/
def Obligations.LoadAfterStoreGivesTheValue : Prop :=
  ∀ (rd rt : RegNum) (addr : AddrMode) (s : State) (pa : Word) (d : MemDevice) (cells : Memory),
    s.wf = true → s.reg 0#5 = 0#32 → rt ≠ 0#5 →
    s.translate (s.effectiveAddress addr) .write .long = .ok pa →
    s.translate (s.effectiveAddress addr) .read .long = .ok pa →
    ownerOf s.devices pa = some d → d.body = .ram cells → pa.toNat + 3 < d.stop →
    ∃ t u : State, exec (.stW rd addr) s = .next t ∧ exec (.ldW rt addr) t = .next u ∧
      u.reg rt = s.reg rd

/-- `lea` of the three sizes writes the effective address itself; it is not translated and calls no device
(R168).
Spec decisions: D39, D40 (log entry 13). -/
def Obligations.LeaWritesTheAddress : Prop :=
  ∀ (rd : RegNum) (addr : AddrMode) (s : State),
    CompletesWriting (exec (.leaB rd addr) s) s rd (s.effectiveAddress addr) ∧
      CompletesWriting (exec (.leaH rd addr) s) s rd (s.effectiveAddress addr) ∧
      CompletesWriting (exec (.leaW rd addr) s) s rd (s.effectiveAddress addr)

/-! ### Load-immediate and set-if-condition -/

/-- `li` writes the extended immediate shifted left, modulo 2^32 (R169).
Spec decisions: D41 (log entry 13). -/
def Obligations.LoadImmediateWritesShiftedValue : Prop :=
  ∀ (rd : RegNum) (imm16 : BitVec 16) (sx : Bool) (sh : Nat) (s : State),
    CompletesWriting (exec (.li rd imm16 sx sh) s) s rd
      (if sx = true then BitVec.ofInt 32 (imm16.toInt * 2 ^ sh)
        else BitVec.ofNat 32 (imm16.toNat * 2 ^ sh))

/-- Any 32-bit constant is built by `li rd, v[31:16], 16` and `or.z rd, v[15:0]`, one after the other
(R170).
Spec decisions: D30, D41 (log entry 13). -/
def Obligations.TwoInstructionsBuildAnyConstant : Prop :=
  ∀ (rd : RegNum) (v : Word) (s : State), rd ≠ 0#5 →
    ∃ t u : State, exec (.li rd (v.extractLsb' 16 16) false 16) s = .next t ∧
      exec (.orImm rd (v.extractLsb' 0 16) false) t = .next u ∧ u.reg rd = v ∧
      ∀ r : RegNum, r ≠ 0#5 → r ≠ rd → u.reg r = s.reg r

/-- The six set-if-condition instructions write 1 when the unsigned comparison of `x[rs]` with the extended
immediate holds, and 0 when it does not (R171 to R177).
Spec decisions: D24, D25, D42 (log entry 13). -/
def Obligations.SetIfConditionWritesZeroOrOne : Prop :=
  ∀ (rd rs : RegNum) (imm16 : BitVec 16) (sx : Bool) (s : State),
    let left := (s.reg rs).toNat
    let right := (extendImm16 imm16 sx).toNat
    CompletesWriting (exec (.seq rd rs imm16 sx) s) s rd (if left = right then 1#32 else 0#32) ∧
      CompletesWriting (exec (.sne rd rs imm16 sx) s) s rd (if left ≠ right then 1#32 else 0#32) ∧
      CompletesWriting (exec (.sgt rd rs imm16 sx) s) s rd (if left > right then 1#32 else 0#32) ∧
      CompletesWriting (exec (.sge rd rs imm16 sx) s) s rd (if left ≥ right then 1#32 else 0#32) ∧
      CompletesWriting (exec (.slt rd rs imm16 sx) s) s rd (if left < right then 1#32 else 0#32) ∧
      CompletesWriting (exec (.sle rd rs imm16 sx) s) s rd (if left ≤ right then 1#32 else 0#32)
end

