-- ==== Sys2Proof/Laws/State.lean ====
section
/-! SUPPORT. One lemma per field per update of the state record, all true by rfl, so that no later proof
unfolds a record update; and the laws of the register file. -/

namespace Sys2Proof.Machine

@[simp] theorem State.setReg_regs (s : State) (r : RegNum) (v : Word) : (s.setReg r v).regs = s.regs.set r.toNat v r.isLt := rfl
@[simp] theorem State.setReg_pipe0 (s : State) (r : RegNum) (v : Word) : (s.setReg r v).pipe0 = s.pipe0 := rfl
@[simp] theorem State.setReg_pipe1 (s : State) (r : RegNum) (v : Word) : (s.setReg r v).pipe1 = s.pipe1 := rfl
@[simp] theorem State.setReg_pipe2 (s : State) (r : RegNum) (v : Word) : (s.setReg r v).pipe2 = s.pipe2 := rfl
@[simp] theorem State.setReg_pl (s : State) (r : RegNum) (v : Word) : (s.setReg r v).pl = s.pl := rfl
@[simp] theorem State.setReg_cr0 (s : State) (r : RegNum) (v : Word) : (s.setReg r v).cr0 = s.cr0 := rfl
@[simp] theorem State.setReg_cr1 (s : State) (r : RegNum) (v : Word) : (s.setReg r v).cr1 = s.cr1 := rfl
@[simp] theorem State.setReg_cause (s : State) (r : RegNum) (v : Word) : (s.setReg r v).cause = s.cause := rfl
@[simp] theorem State.setReg_handler (s : State) (r : RegNum) (v : Word) : (s.setReg r v).handler = s.handler := rfl
@[simp] theorem State.setReg_epc (s : State) (r : RegNum) (v : Word) : (s.setReg r v).epc = s.epc := rfl
@[simp] theorem State.setReg_mmucr (s : State) (r : RegNum) (v : Word) : (s.setReg r v).mmucr = s.mmucr := rfl
@[simp] theorem State.setReg_maps (s : State) (r : RegNum) (v : Word) : (s.setReg r v).maps = s.maps := rfl
@[simp] theorem State.setReg_devices (s : State) (r : RegNum) (v : Word) : (s.setReg r v).devices = s.devices := rfl
@[simp] theorem State.setReg_ports (s : State) (r : RegNum) (v : Word) : (s.setReg r v).ports = s.ports := rfl

@[simp] theorem State.setPc_pipe0 (s : State) (v : Word) : (s.setPc v).pipe0 = s.pipe0 := rfl
@[simp] theorem State.setPc_pipe1 (s : State) (v : Word) : (s.setPc v).pipe1 = s.pipe1 := rfl
@[simp] theorem State.setPc_pipe2 (s : State) (v : Word) : (s.setPc v).pipe2 = s.pipe2 := rfl
@[simp] theorem State.setPc_pl (s : State) (v : Word) : (s.setPc v).pl = s.pl := rfl
@[simp] theorem State.setPc_cr0 (s : State) (v : Word) : (s.setPc v).cr0 = s.cr0 := rfl
@[simp] theorem State.setPc_cr1 (s : State) (v : Word) : (s.setPc v).cr1 = s.cr1 := rfl
@[simp] theorem State.setPc_cause (s : State) (v : Word) : (s.setPc v).cause = s.cause := rfl
@[simp] theorem State.setPc_handler (s : State) (v : Word) : (s.setPc v).handler = s.handler := rfl
@[simp] theorem State.setPc_epc (s : State) (v : Word) : (s.setPc v).epc = s.epc := rfl
@[simp] theorem State.setPc_mmucr (s : State) (v : Word) : (s.setPc v).mmucr = s.mmucr := rfl
@[simp] theorem State.setPc_maps (s : State) (v : Word) : (s.setPc v).maps = s.maps := rfl
@[simp] theorem State.setPc_devices (s : State) (v : Word) : (s.setPc v).devices = s.devices := rfl
@[simp] theorem State.setPc_ports (s : State) (v : Word) : (s.setPc v).ports = s.ports := rfl

@[simp] theorem State.setPl_regs (s : State) (v : PrivLevel) : (s.setPl v).regs = s.regs := rfl
@[simp] theorem State.setPl_pipe0 (s : State) (v : PrivLevel) : (s.setPl v).pipe0 = s.pipe0 := rfl
@[simp] theorem State.setPl_pipe1 (s : State) (v : PrivLevel) : (s.setPl v).pipe1 = s.pipe1 := rfl
@[simp] theorem State.setPl_pipe2 (s : State) (v : PrivLevel) : (s.setPl v).pipe2 = s.pipe2 := rfl
@[simp] theorem State.setPl_pl (s : State) (v : PrivLevel) : (s.setPl v).pl = v := rfl
@[simp] theorem State.setPl_cr0 (s : State) (v : PrivLevel) : (s.setPl v).cr0 = s.cr0 := rfl
@[simp] theorem State.setPl_cr1 (s : State) (v : PrivLevel) : (s.setPl v).cr1 = s.cr1 := rfl
@[simp] theorem State.setPl_cause (s : State) (v : PrivLevel) : (s.setPl v).cause = s.cause := rfl
@[simp] theorem State.setPl_handler (s : State) (v : PrivLevel) : (s.setPl v).handler = s.handler := rfl
@[simp] theorem State.setPl_epc (s : State) (v : PrivLevel) : (s.setPl v).epc = s.epc := rfl
@[simp] theorem State.setPl_mmucr (s : State) (v : PrivLevel) : (s.setPl v).mmucr = s.mmucr := rfl
@[simp] theorem State.setPl_maps (s : State) (v : PrivLevel) : (s.setPl v).maps = s.maps := rfl
@[simp] theorem State.setPl_devices (s : State) (v : PrivLevel) : (s.setPl v).devices = s.devices := rfl
@[simp] theorem State.setPl_ports (s : State) (v : PrivLevel) : (s.setPl v).ports = s.ports := rfl
@[simp] theorem State.setPl_reg (s : State) (v : PrivLevel) (q : RegNum) : (s.setPl v).reg q = s.reg q := rfl

@[simp] theorem State.setCr0_regs (s : State) (v : Word) : (s.setCr0 v).regs = s.regs := rfl
@[simp] theorem State.setCr0_pipe0 (s : State) (v : Word) : (s.setCr0 v).pipe0 = s.pipe0 := rfl
@[simp] theorem State.setCr0_pipe1 (s : State) (v : Word) : (s.setCr0 v).pipe1 = s.pipe1 := rfl
@[simp] theorem State.setCr0_pipe2 (s : State) (v : Word) : (s.setCr0 v).pipe2 = s.pipe2 := rfl
@[simp] theorem State.setCr0_pl (s : State) (v : Word) : (s.setCr0 v).pl = s.pl := rfl
@[simp] theorem State.setCr0_cr0 (s : State) (v : Word) : (s.setCr0 v).cr0 = v := rfl
@[simp] theorem State.setCr0_cr1 (s : State) (v : Word) : (s.setCr0 v).cr1 = s.cr1 := rfl
@[simp] theorem State.setCr0_cause (s : State) (v : Word) : (s.setCr0 v).cause = s.cause := rfl
@[simp] theorem State.setCr0_handler (s : State) (v : Word) : (s.setCr0 v).handler = s.handler := rfl
@[simp] theorem State.setCr0_epc (s : State) (v : Word) : (s.setCr0 v).epc = s.epc := rfl
@[simp] theorem State.setCr0_mmucr (s : State) (v : Word) : (s.setCr0 v).mmucr = s.mmucr := rfl
@[simp] theorem State.setCr0_maps (s : State) (v : Word) : (s.setCr0 v).maps = s.maps := rfl
@[simp] theorem State.setCr0_devices (s : State) (v : Word) : (s.setCr0 v).devices = s.devices := rfl
@[simp] theorem State.setCr0_ports (s : State) (v : Word) : (s.setCr0 v).ports = s.ports := rfl
@[simp] theorem State.setCr0_reg (s : State) (v : Word) (q : RegNum) : (s.setCr0 v).reg q = s.reg q := rfl

@[simp] theorem State.setCr1_regs (s : State) (v : Word) : (s.setCr1 v).regs = s.regs := rfl
@[simp] theorem State.setCr1_pipe0 (s : State) (v : Word) : (s.setCr1 v).pipe0 = s.pipe0 := rfl
@[simp] theorem State.setCr1_pipe1 (s : State) (v : Word) : (s.setCr1 v).pipe1 = s.pipe1 := rfl
@[simp] theorem State.setCr1_pipe2 (s : State) (v : Word) : (s.setCr1 v).pipe2 = s.pipe2 := rfl
@[simp] theorem State.setCr1_pl (s : State) (v : Word) : (s.setCr1 v).pl = s.pl := rfl
@[simp] theorem State.setCr1_cr0 (s : State) (v : Word) : (s.setCr1 v).cr0 = s.cr0 := rfl
@[simp] theorem State.setCr1_cr1 (s : State) (v : Word) : (s.setCr1 v).cr1 = v := rfl
@[simp] theorem State.setCr1_cause (s : State) (v : Word) : (s.setCr1 v).cause = s.cause := rfl
@[simp] theorem State.setCr1_handler (s : State) (v : Word) : (s.setCr1 v).handler = s.handler := rfl
@[simp] theorem State.setCr1_epc (s : State) (v : Word) : (s.setCr1 v).epc = s.epc := rfl
@[simp] theorem State.setCr1_mmucr (s : State) (v : Word) : (s.setCr1 v).mmucr = s.mmucr := rfl
@[simp] theorem State.setCr1_maps (s : State) (v : Word) : (s.setCr1 v).maps = s.maps := rfl
@[simp] theorem State.setCr1_devices (s : State) (v : Word) : (s.setCr1 v).devices = s.devices := rfl
@[simp] theorem State.setCr1_ports (s : State) (v : Word) : (s.setCr1 v).ports = s.ports := rfl
@[simp] theorem State.setCr1_reg (s : State) (v : Word) (q : RegNum) : (s.setCr1 v).reg q = s.reg q := rfl

@[simp] theorem State.setCause_regs (s : State) (v : Word) : (s.setCause v).regs = s.regs := rfl
@[simp] theorem State.setCause_pipe0 (s : State) (v : Word) : (s.setCause v).pipe0 = s.pipe0 := rfl
@[simp] theorem State.setCause_pipe1 (s : State) (v : Word) : (s.setCause v).pipe1 = s.pipe1 := rfl
@[simp] theorem State.setCause_pipe2 (s : State) (v : Word) : (s.setCause v).pipe2 = s.pipe2 := rfl
@[simp] theorem State.setCause_pl (s : State) (v : Word) : (s.setCause v).pl = s.pl := rfl
@[simp] theorem State.setCause_cr0 (s : State) (v : Word) : (s.setCause v).cr0 = s.cr0 := rfl
@[simp] theorem State.setCause_cr1 (s : State) (v : Word) : (s.setCause v).cr1 = s.cr1 := rfl
@[simp] theorem State.setCause_cause (s : State) (v : Word) : (s.setCause v).cause = v := rfl
@[simp] theorem State.setCause_handler (s : State) (v : Word) : (s.setCause v).handler = s.handler := rfl
@[simp] theorem State.setCause_epc (s : State) (v : Word) : (s.setCause v).epc = s.epc := rfl
@[simp] theorem State.setCause_mmucr (s : State) (v : Word) : (s.setCause v).mmucr = s.mmucr := rfl
@[simp] theorem State.setCause_maps (s : State) (v : Word) : (s.setCause v).maps = s.maps := rfl
@[simp] theorem State.setCause_devices (s : State) (v : Word) : (s.setCause v).devices = s.devices := rfl
@[simp] theorem State.setCause_ports (s : State) (v : Word) : (s.setCause v).ports = s.ports := rfl
@[simp] theorem State.setCause_reg (s : State) (v : Word) (q : RegNum) : (s.setCause v).reg q = s.reg q := rfl

@[simp] theorem State.setHandler_regs (s : State) (v : Word) : (s.setHandler v).regs = s.regs := rfl
@[simp] theorem State.setHandler_pipe0 (s : State) (v : Word) : (s.setHandler v).pipe0 = s.pipe0 := rfl
@[simp] theorem State.setHandler_pipe1 (s : State) (v : Word) : (s.setHandler v).pipe1 = s.pipe1 := rfl
@[simp] theorem State.setHandler_pipe2 (s : State) (v : Word) : (s.setHandler v).pipe2 = s.pipe2 := rfl
@[simp] theorem State.setHandler_pl (s : State) (v : Word) : (s.setHandler v).pl = s.pl := rfl
@[simp] theorem State.setHandler_cr0 (s : State) (v : Word) : (s.setHandler v).cr0 = s.cr0 := rfl
@[simp] theorem State.setHandler_cr1 (s : State) (v : Word) : (s.setHandler v).cr1 = s.cr1 := rfl
@[simp] theorem State.setHandler_cause (s : State) (v : Word) : (s.setHandler v).cause = s.cause := rfl
@[simp] theorem State.setHandler_handler (s : State) (v : Word) : (s.setHandler v).handler = v := rfl
@[simp] theorem State.setHandler_epc (s : State) (v : Word) : (s.setHandler v).epc = s.epc := rfl
@[simp] theorem State.setHandler_mmucr (s : State) (v : Word) : (s.setHandler v).mmucr = s.mmucr := rfl
@[simp] theorem State.setHandler_maps (s : State) (v : Word) : (s.setHandler v).maps = s.maps := rfl
@[simp] theorem State.setHandler_devices (s : State) (v : Word) : (s.setHandler v).devices = s.devices := rfl
@[simp] theorem State.setHandler_ports (s : State) (v : Word) : (s.setHandler v).ports = s.ports := rfl
@[simp] theorem State.setHandler_reg (s : State) (v : Word) (q : RegNum) : (s.setHandler v).reg q = s.reg q := rfl

@[simp] theorem State.setEpc_regs (s : State) (v : Word) : (s.setEpc v).regs = s.regs := rfl
@[simp] theorem State.setEpc_pipe0 (s : State) (v : Word) : (s.setEpc v).pipe0 = s.pipe0 := rfl
@[simp] theorem State.setEpc_pipe1 (s : State) (v : Word) : (s.setEpc v).pipe1 = s.pipe1 := rfl
@[simp] theorem State.setEpc_pipe2 (s : State) (v : Word) : (s.setEpc v).pipe2 = s.pipe2 := rfl
@[simp] theorem State.setEpc_pl (s : State) (v : Word) : (s.setEpc v).pl = s.pl := rfl
@[simp] theorem State.setEpc_cr0 (s : State) (v : Word) : (s.setEpc v).cr0 = s.cr0 := rfl
@[simp] theorem State.setEpc_cr1 (s : State) (v : Word) : (s.setEpc v).cr1 = s.cr1 := rfl
@[simp] theorem State.setEpc_cause (s : State) (v : Word) : (s.setEpc v).cause = s.cause := rfl
@[simp] theorem State.setEpc_handler (s : State) (v : Word) : (s.setEpc v).handler = s.handler := rfl
@[simp] theorem State.setEpc_epc (s : State) (v : Word) : (s.setEpc v).epc = v := rfl
@[simp] theorem State.setEpc_mmucr (s : State) (v : Word) : (s.setEpc v).mmucr = s.mmucr := rfl
@[simp] theorem State.setEpc_maps (s : State) (v : Word) : (s.setEpc v).maps = s.maps := rfl
@[simp] theorem State.setEpc_devices (s : State) (v : Word) : (s.setEpc v).devices = s.devices := rfl
@[simp] theorem State.setEpc_ports (s : State) (v : Word) : (s.setEpc v).ports = s.ports := rfl
@[simp] theorem State.setEpc_reg (s : State) (v : Word) (q : RegNum) : (s.setEpc v).reg q = s.reg q := rfl

@[simp] theorem State.setMmucr_regs (s : State) (v : Word) : (s.setMmucr v).regs = s.regs := rfl
@[simp] theorem State.setMmucr_pipe0 (s : State) (v : Word) : (s.setMmucr v).pipe0 = s.pipe0 := rfl
@[simp] theorem State.setMmucr_pipe1 (s : State) (v : Word) : (s.setMmucr v).pipe1 = s.pipe1 := rfl
@[simp] theorem State.setMmucr_pipe2 (s : State) (v : Word) : (s.setMmucr v).pipe2 = s.pipe2 := rfl
@[simp] theorem State.setMmucr_pl (s : State) (v : Word) : (s.setMmucr v).pl = s.pl := rfl
@[simp] theorem State.setMmucr_cr0 (s : State) (v : Word) : (s.setMmucr v).cr0 = s.cr0 := rfl
@[simp] theorem State.setMmucr_cr1 (s : State) (v : Word) : (s.setMmucr v).cr1 = s.cr1 := rfl
@[simp] theorem State.setMmucr_cause (s : State) (v : Word) : (s.setMmucr v).cause = s.cause := rfl
@[simp] theorem State.setMmucr_handler (s : State) (v : Word) : (s.setMmucr v).handler = s.handler := rfl
@[simp] theorem State.setMmucr_epc (s : State) (v : Word) : (s.setMmucr v).epc = s.epc := rfl
@[simp] theorem State.setMmucr_mmucr (s : State) (v : Word) : (s.setMmucr v).mmucr = v := rfl
@[simp] theorem State.setMmucr_maps (s : State) (v : Word) : (s.setMmucr v).maps = s.maps := rfl
@[simp] theorem State.setMmucr_devices (s : State) (v : Word) : (s.setMmucr v).devices = s.devices := rfl
@[simp] theorem State.setMmucr_ports (s : State) (v : Word) : (s.setMmucr v).ports = s.ports := rfl
@[simp] theorem State.setMmucr_reg (s : State) (v : Word) (q : RegNum) : (s.setMmucr v).reg q = s.reg q := rfl

@[simp] theorem State.setMaps_regs (s : State) (v : Vector (Vector MapEntry 32) 4) : (s.setMaps v).regs = s.regs := rfl
@[simp] theorem State.setMaps_pipe0 (s : State) (v : Vector (Vector MapEntry 32) 4) : (s.setMaps v).pipe0 = s.pipe0 := rfl
@[simp] theorem State.setMaps_pipe1 (s : State) (v : Vector (Vector MapEntry 32) 4) : (s.setMaps v).pipe1 = s.pipe1 := rfl
@[simp] theorem State.setMaps_pipe2 (s : State) (v : Vector (Vector MapEntry 32) 4) : (s.setMaps v).pipe2 = s.pipe2 := rfl
@[simp] theorem State.setMaps_pl (s : State) (v : Vector (Vector MapEntry 32) 4) : (s.setMaps v).pl = s.pl := rfl
@[simp] theorem State.setMaps_cr0 (s : State) (v : Vector (Vector MapEntry 32) 4) : (s.setMaps v).cr0 = s.cr0 := rfl
@[simp] theorem State.setMaps_cr1 (s : State) (v : Vector (Vector MapEntry 32) 4) : (s.setMaps v).cr1 = s.cr1 := rfl
@[simp] theorem State.setMaps_cause (s : State) (v : Vector (Vector MapEntry 32) 4) : (s.setMaps v).cause = s.cause := rfl
@[simp] theorem State.setMaps_handler (s : State) (v : Vector (Vector MapEntry 32) 4) : (s.setMaps v).handler = s.handler := rfl
@[simp] theorem State.setMaps_epc (s : State) (v : Vector (Vector MapEntry 32) 4) : (s.setMaps v).epc = s.epc := rfl
@[simp] theorem State.setMaps_mmucr (s : State) (v : Vector (Vector MapEntry 32) 4) : (s.setMaps v).mmucr = s.mmucr := rfl
@[simp] theorem State.setMaps_maps (s : State) (v : Vector (Vector MapEntry 32) 4) : (s.setMaps v).maps = v := rfl
@[simp] theorem State.setMaps_devices (s : State) (v : Vector (Vector MapEntry 32) 4) : (s.setMaps v).devices = s.devices := rfl
@[simp] theorem State.setMaps_ports (s : State) (v : Vector (Vector MapEntry 32) 4) : (s.setMaps v).ports = s.ports := rfl
@[simp] theorem State.setMaps_reg (s : State) (v : Vector (Vector MapEntry 32) 4) (q : RegNum) : (s.setMaps v).reg q = s.reg q := rfl

@[simp] theorem State.setDevices_regs (s : State) (v : List MemDevice) : (s.setDevices v).regs = s.regs := rfl
@[simp] theorem State.setDevices_pipe0 (s : State) (v : List MemDevice) : (s.setDevices v).pipe0 = s.pipe0 := rfl
@[simp] theorem State.setDevices_pipe1 (s : State) (v : List MemDevice) : (s.setDevices v).pipe1 = s.pipe1 := rfl
@[simp] theorem State.setDevices_pipe2 (s : State) (v : List MemDevice) : (s.setDevices v).pipe2 = s.pipe2 := rfl
@[simp] theorem State.setDevices_pl (s : State) (v : List MemDevice) : (s.setDevices v).pl = s.pl := rfl
@[simp] theorem State.setDevices_cr0 (s : State) (v : List MemDevice) : (s.setDevices v).cr0 = s.cr0 := rfl
@[simp] theorem State.setDevices_cr1 (s : State) (v : List MemDevice) : (s.setDevices v).cr1 = s.cr1 := rfl
@[simp] theorem State.setDevices_cause (s : State) (v : List MemDevice) : (s.setDevices v).cause = s.cause := rfl
@[simp] theorem State.setDevices_handler (s : State) (v : List MemDevice) : (s.setDevices v).handler = s.handler := rfl
@[simp] theorem State.setDevices_epc (s : State) (v : List MemDevice) : (s.setDevices v).epc = s.epc := rfl
@[simp] theorem State.setDevices_mmucr (s : State) (v : List MemDevice) : (s.setDevices v).mmucr = s.mmucr := rfl
@[simp] theorem State.setDevices_maps (s : State) (v : List MemDevice) : (s.setDevices v).maps = s.maps := rfl
@[simp] theorem State.setDevices_devices (s : State) (v : List MemDevice) : (s.setDevices v).devices = v := rfl
@[simp] theorem State.setDevices_ports (s : State) (v : List MemDevice) : (s.setDevices v).ports = s.ports := rfl
@[simp] theorem State.setDevices_reg (s : State) (v : List MemDevice) (q : RegNum) : (s.setDevices v).reg q = s.reg q := rfl

@[simp] theorem State.setPorts_regs (s : State) (v : List PortDevice) : (s.setPorts v).regs = s.regs := rfl
@[simp] theorem State.setPorts_pipe0 (s : State) (v : List PortDevice) : (s.setPorts v).pipe0 = s.pipe0 := rfl
@[simp] theorem State.setPorts_pipe1 (s : State) (v : List PortDevice) : (s.setPorts v).pipe1 = s.pipe1 := rfl
@[simp] theorem State.setPorts_pipe2 (s : State) (v : List PortDevice) : (s.setPorts v).pipe2 = s.pipe2 := rfl
@[simp] theorem State.setPorts_pl (s : State) (v : List PortDevice) : (s.setPorts v).pl = s.pl := rfl
@[simp] theorem State.setPorts_cr0 (s : State) (v : List PortDevice) : (s.setPorts v).cr0 = s.cr0 := rfl
@[simp] theorem State.setPorts_cr1 (s : State) (v : List PortDevice) : (s.setPorts v).cr1 = s.cr1 := rfl
@[simp] theorem State.setPorts_cause (s : State) (v : List PortDevice) : (s.setPorts v).cause = s.cause := rfl
@[simp] theorem State.setPorts_handler (s : State) (v : List PortDevice) : (s.setPorts v).handler = s.handler := rfl
@[simp] theorem State.setPorts_epc (s : State) (v : List PortDevice) : (s.setPorts v).epc = s.epc := rfl
@[simp] theorem State.setPorts_mmucr (s : State) (v : List PortDevice) : (s.setPorts v).mmucr = s.mmucr := rfl
@[simp] theorem State.setPorts_maps (s : State) (v : List PortDevice) : (s.setPorts v).maps = s.maps := rfl
@[simp] theorem State.setPorts_devices (s : State) (v : List PortDevice) : (s.setPorts v).devices = s.devices := rfl
@[simp] theorem State.setPorts_ports (s : State) (v : List PortDevice) : (s.setPorts v).ports = v := rfl
@[simp] theorem State.setPorts_reg (s : State) (v : List PortDevice) (q : RegNum) : (s.setPorts v).reg q = s.reg q := rfl

@[simp] theorem State.setPipe_regs (s : State) (p0 p1 p2 : Word) : (s.setPipe p0 p1 p2).regs = s.regs := rfl
@[simp] theorem State.setPipe_pipe0 (s : State) (p0 p1 p2 : Word) : (s.setPipe p0 p1 p2).pipe0 = p0 := rfl
@[simp] theorem State.setPipe_pipe1 (s : State) (p0 p1 p2 : Word) : (s.setPipe p0 p1 p2).pipe1 = p1 := rfl
@[simp] theorem State.setPipe_pipe2 (s : State) (p0 p1 p2 : Word) : (s.setPipe p0 p1 p2).pipe2 = p2 := rfl
@[simp] theorem State.setPipe_pl (s : State) (p0 p1 p2 : Word) : (s.setPipe p0 p1 p2).pl = s.pl := rfl
@[simp] theorem State.setPipe_cr0 (s : State) (p0 p1 p2 : Word) : (s.setPipe p0 p1 p2).cr0 = s.cr0 := rfl
@[simp] theorem State.setPipe_cr1 (s : State) (p0 p1 p2 : Word) : (s.setPipe p0 p1 p2).cr1 = s.cr1 := rfl
@[simp] theorem State.setPipe_cause (s : State) (p0 p1 p2 : Word) : (s.setPipe p0 p1 p2).cause = s.cause := rfl
@[simp] theorem State.setPipe_handler (s : State) (p0 p1 p2 : Word) : (s.setPipe p0 p1 p2).handler = s.handler := rfl
@[simp] theorem State.setPipe_epc (s : State) (p0 p1 p2 : Word) : (s.setPipe p0 p1 p2).epc = s.epc := rfl
@[simp] theorem State.setPipe_mmucr (s : State) (p0 p1 p2 : Word) : (s.setPipe p0 p1 p2).mmucr = s.mmucr := rfl
@[simp] theorem State.setPipe_maps (s : State) (p0 p1 p2 : Word) : (s.setPipe p0 p1 p2).maps = s.maps := rfl
@[simp] theorem State.setPipe_devices (s : State) (p0 p1 p2 : Word) : (s.setPipe p0 p1 p2).devices = s.devices := rfl
@[simp] theorem State.setPipe_ports (s : State) (p0 p1 p2 : Word) : (s.setPipe p0 p1 p2).ports = s.ports := rfl
@[simp] theorem State.setPipe_reg (s : State) (p0 p1 p2 : Word) (q : RegNum) : (s.setPipe p0 p1 p2).reg q = s.reg q := rfl

@[simp] theorem State.setPipe0_regs (s : State) (w : Word) : (s.setPipe0 w).regs = s.regs := rfl
@[simp] theorem State.setPipe0_pipe0 (s : State) (w : Word) : (s.setPipe0 w).pipe0 = w := rfl
@[simp] theorem State.setPipe0_pipe1 (s : State) (w : Word) : (s.setPipe0 w).pipe1 = s.pipe1 := rfl
@[simp] theorem State.setPipe0_pipe2 (s : State) (w : Word) : (s.setPipe0 w).pipe2 = s.pipe2 := rfl
@[simp] theorem State.setPipe0_pl (s : State) (w : Word) : (s.setPipe0 w).pl = s.pl := rfl
@[simp] theorem State.setPipe0_cr0 (s : State) (w : Word) : (s.setPipe0 w).cr0 = s.cr0 := rfl
@[simp] theorem State.setPipe0_cr1 (s : State) (w : Word) : (s.setPipe0 w).cr1 = s.cr1 := rfl
@[simp] theorem State.setPipe0_cause (s : State) (w : Word) : (s.setPipe0 w).cause = s.cause := rfl
@[simp] theorem State.setPipe0_handler (s : State) (w : Word) : (s.setPipe0 w).handler = s.handler := rfl
@[simp] theorem State.setPipe0_epc (s : State) (w : Word) : (s.setPipe0 w).epc = s.epc := rfl
@[simp] theorem State.setPipe0_mmucr (s : State) (w : Word) : (s.setPipe0 w).mmucr = s.mmucr := rfl
@[simp] theorem State.setPipe0_maps (s : State) (w : Word) : (s.setPipe0 w).maps = s.maps := rfl
@[simp] theorem State.setPipe0_devices (s : State) (w : Word) : (s.setPipe0 w).devices = s.devices := rfl
@[simp] theorem State.setPipe0_ports (s : State) (w : Word) : (s.setPipe0 w).ports = s.ports := rfl
@[simp] theorem State.setPipe0_reg (s : State) (w : Word) (q : RegNum) : (s.setPipe0 w).reg q = s.reg q := rfl

@[simp] theorem State.flush_regs (s : State) : (s.flush).regs = s.regs := rfl
@[simp] theorem State.flush_pipe0 (s : State) : (s.flush).pipe0 = 0#32 := rfl
@[simp] theorem State.flush_pipe1 (s : State) : (s.flush).pipe1 = 0#32 := rfl
@[simp] theorem State.flush_pipe2 (s : State) : (s.flush).pipe2 = 0#32 := rfl
@[simp] theorem State.flush_pl (s : State) : (s.flush).pl = s.pl := rfl
@[simp] theorem State.flush_cr0 (s : State) : (s.flush).cr0 = s.cr0 := rfl
@[simp] theorem State.flush_cr1 (s : State) : (s.flush).cr1 = s.cr1 := rfl
@[simp] theorem State.flush_cause (s : State) : (s.flush).cause = s.cause := rfl
@[simp] theorem State.flush_handler (s : State) : (s.flush).handler = s.handler := rfl
@[simp] theorem State.flush_epc (s : State) : (s.flush).epc = s.epc := rfl
@[simp] theorem State.flush_mmucr (s : State) : (s.flush).mmucr = s.mmucr := rfl
@[simp] theorem State.flush_maps (s : State) : (s.flush).maps = s.maps := rfl
@[simp] theorem State.flush_devices (s : State) : (s.flush).devices = s.devices := rfl
@[simp] theorem State.flush_ports (s : State) : (s.flush).ports = s.ports := rfl
@[simp] theorem State.flush_reg (s : State) (q : RegNum) : (s.flush).reg q = s.reg q := rfl

@[simp] theorem State.shiftPipe_regs (s : State) : (s.shiftPipe).regs = s.regs := rfl
@[simp] theorem State.shiftPipe_pipe0 (s : State) : (s.shiftPipe).pipe0 = s.pipe0 := rfl
@[simp] theorem State.shiftPipe_pipe1 (s : State) : (s.shiftPipe).pipe1 = s.pipe0 := rfl
@[simp] theorem State.shiftPipe_pipe2 (s : State) : (s.shiftPipe).pipe2 = s.pipe1 := rfl
@[simp] theorem State.shiftPipe_pl (s : State) : (s.shiftPipe).pl = s.pl := rfl
@[simp] theorem State.shiftPipe_cr0 (s : State) : (s.shiftPipe).cr0 = s.cr0 := rfl
@[simp] theorem State.shiftPipe_cr1 (s : State) : (s.shiftPipe).cr1 = s.cr1 := rfl
@[simp] theorem State.shiftPipe_cause (s : State) : (s.shiftPipe).cause = s.cause := rfl
@[simp] theorem State.shiftPipe_handler (s : State) : (s.shiftPipe).handler = s.handler := rfl
@[simp] theorem State.shiftPipe_epc (s : State) : (s.shiftPipe).epc = s.epc := rfl
@[simp] theorem State.shiftPipe_mmucr (s : State) : (s.shiftPipe).mmucr = s.mmucr := rfl
@[simp] theorem State.shiftPipe_maps (s : State) : (s.shiftPipe).maps = s.maps := rfl
@[simp] theorem State.shiftPipe_devices (s : State) : (s.shiftPipe).devices = s.devices := rfl
@[simp] theorem State.shiftPipe_ports (s : State) : (s.shiftPipe).ports = s.ports := rfl
@[simp] theorem State.shiftPipe_reg (s : State) (q : RegNum) : (s.shiftPipe).reg q = s.reg q := rfl

@[simp] theorem State.setEntry_regs (s : State) (m : BitVec 2) (i : Fin 32) (e : MapEntry) : (s.setEntry m i e).regs = s.regs := rfl
@[simp] theorem State.setEntry_pipe0 (s : State) (m : BitVec 2) (i : Fin 32) (e : MapEntry) : (s.setEntry m i e).pipe0 = s.pipe0 := rfl
@[simp] theorem State.setEntry_pipe1 (s : State) (m : BitVec 2) (i : Fin 32) (e : MapEntry) : (s.setEntry m i e).pipe1 = s.pipe1 := rfl
@[simp] theorem State.setEntry_pipe2 (s : State) (m : BitVec 2) (i : Fin 32) (e : MapEntry) : (s.setEntry m i e).pipe2 = s.pipe2 := rfl
@[simp] theorem State.setEntry_pl (s : State) (m : BitVec 2) (i : Fin 32) (e : MapEntry) : (s.setEntry m i e).pl = s.pl := rfl
@[simp] theorem State.setEntry_cr0 (s : State) (m : BitVec 2) (i : Fin 32) (e : MapEntry) : (s.setEntry m i e).cr0 = s.cr0 := rfl
@[simp] theorem State.setEntry_cr1 (s : State) (m : BitVec 2) (i : Fin 32) (e : MapEntry) : (s.setEntry m i e).cr1 = s.cr1 := rfl
@[simp] theorem State.setEntry_cause (s : State) (m : BitVec 2) (i : Fin 32) (e : MapEntry) : (s.setEntry m i e).cause = s.cause := rfl
@[simp] theorem State.setEntry_handler (s : State) (m : BitVec 2) (i : Fin 32) (e : MapEntry) : (s.setEntry m i e).handler = s.handler := rfl
@[simp] theorem State.setEntry_epc (s : State) (m : BitVec 2) (i : Fin 32) (e : MapEntry) : (s.setEntry m i e).epc = s.epc := rfl
@[simp] theorem State.setEntry_mmucr (s : State) (m : BitVec 2) (i : Fin 32) (e : MapEntry) : (s.setEntry m i e).mmucr = s.mmucr := rfl
@[simp] theorem State.setEntry_devices (s : State) (m : BitVec 2) (i : Fin 32) (e : MapEntry) : (s.setEntry m i e).devices = s.devices := rfl
@[simp] theorem State.setEntry_ports (s : State) (m : BitVec 2) (i : Fin 32) (e : MapEntry) : (s.setEntry m i e).ports = s.ports := rfl
@[simp] theorem State.setEntry_reg (s : State) (m : BitVec 2) (i : Fin 32) (e : MapEntry) (q : RegNum) : (s.setEntry m i e).reg q = s.reg q := rfl

@[simp] theorem State.busWrite_regs (s : State) (pa : Word) (sz : SizeCode) (v : Word) : (s.busWrite pa sz v).regs = s.regs := rfl
@[simp] theorem State.busWrite_pipe0 (s : State) (pa : Word) (sz : SizeCode) (v : Word) : (s.busWrite pa sz v).pipe0 = s.pipe0 := rfl
@[simp] theorem State.busWrite_pipe1 (s : State) (pa : Word) (sz : SizeCode) (v : Word) : (s.busWrite pa sz v).pipe1 = s.pipe1 := rfl
@[simp] theorem State.busWrite_pipe2 (s : State) (pa : Word) (sz : SizeCode) (v : Word) : (s.busWrite pa sz v).pipe2 = s.pipe2 := rfl
@[simp] theorem State.busWrite_pl (s : State) (pa : Word) (sz : SizeCode) (v : Word) : (s.busWrite pa sz v).pl = s.pl := rfl
@[simp] theorem State.busWrite_cr0 (s : State) (pa : Word) (sz : SizeCode) (v : Word) : (s.busWrite pa sz v).cr0 = s.cr0 := rfl
@[simp] theorem State.busWrite_cr1 (s : State) (pa : Word) (sz : SizeCode) (v : Word) : (s.busWrite pa sz v).cr1 = s.cr1 := rfl
@[simp] theorem State.busWrite_cause (s : State) (pa : Word) (sz : SizeCode) (v : Word) : (s.busWrite pa sz v).cause = s.cause := rfl
@[simp] theorem State.busWrite_handler (s : State) (pa : Word) (sz : SizeCode) (v : Word) : (s.busWrite pa sz v).handler = s.handler := rfl
@[simp] theorem State.busWrite_epc (s : State) (pa : Word) (sz : SizeCode) (v : Word) : (s.busWrite pa sz v).epc = s.epc := rfl
@[simp] theorem State.busWrite_mmucr (s : State) (pa : Word) (sz : SizeCode) (v : Word) : (s.busWrite pa sz v).mmucr = s.mmucr := rfl
@[simp] theorem State.busWrite_maps (s : State) (pa : Word) (sz : SizeCode) (v : Word) : (s.busWrite pa sz v).maps = s.maps := rfl
@[simp] theorem State.busWrite_devices (s : State) (pa : Word) (sz : SizeCode) (v : Word) : (s.busWrite pa sz v).devices = devicesWrite s.devices pa sz v := rfl
@[simp] theorem State.busWrite_ports (s : State) (pa : Word) (sz : SizeCode) (v : Word) : (s.busWrite pa sz v).ports = s.ports := rfl
@[simp] theorem State.busWrite_reg (s : State) (pa : Word) (sz : SizeCode) (v : Word) (q : RegNum) : (s.busWrite pa sz v).reg q = s.reg q := rfl

@[simp] theorem State.busRead_regs (s : State) (pa : Word) (sz : SizeCode) : (s.busRead pa sz).2.regs = s.regs := rfl
@[simp] theorem State.busRead_pipe0 (s : State) (pa : Word) (sz : SizeCode) : (s.busRead pa sz).2.pipe0 = s.pipe0 := rfl
@[simp] theorem State.busRead_pipe1 (s : State) (pa : Word) (sz : SizeCode) : (s.busRead pa sz).2.pipe1 = s.pipe1 := rfl
@[simp] theorem State.busRead_pipe2 (s : State) (pa : Word) (sz : SizeCode) : (s.busRead pa sz).2.pipe2 = s.pipe2 := rfl
@[simp] theorem State.busRead_pl (s : State) (pa : Word) (sz : SizeCode) : (s.busRead pa sz).2.pl = s.pl := rfl
@[simp] theorem State.busRead_cr0 (s : State) (pa : Word) (sz : SizeCode) : (s.busRead pa sz).2.cr0 = s.cr0 := rfl
@[simp] theorem State.busRead_cr1 (s : State) (pa : Word) (sz : SizeCode) : (s.busRead pa sz).2.cr1 = s.cr1 := rfl
@[simp] theorem State.busRead_cause (s : State) (pa : Word) (sz : SizeCode) : (s.busRead pa sz).2.cause = s.cause := rfl
@[simp] theorem State.busRead_handler (s : State) (pa : Word) (sz : SizeCode) : (s.busRead pa sz).2.handler = s.handler := rfl
@[simp] theorem State.busRead_epc (s : State) (pa : Word) (sz : SizeCode) : (s.busRead pa sz).2.epc = s.epc := rfl
@[simp] theorem State.busRead_mmucr (s : State) (pa : Word) (sz : SizeCode) : (s.busRead pa sz).2.mmucr = s.mmucr := rfl
@[simp] theorem State.busRead_maps (s : State) (pa : Word) (sz : SizeCode) : (s.busRead pa sz).2.maps = s.maps := rfl
@[simp] theorem State.busRead_devices (s : State) (pa : Word) (sz : SizeCode) : (s.busRead pa sz).2.devices = (devicesRead s.devices pa sz).2 := rfl
@[simp] theorem State.busRead_ports (s : State) (pa : Word) (sz : SizeCode) : (s.busRead pa sz).2.ports = s.ports := rfl
@[simp] theorem State.busRead_reg (s : State) (pa : Word) (sz : SizeCode) (q : RegNum) : (s.busRead pa sz).2.reg q = s.reg q := rfl
@[simp] theorem State.busRead_value (s : State) (pa : Word) (sz : SizeCode) : (s.busRead pa sz).1 = (devicesRead s.devices pa sz).1 := rfl

/-! ### The register file -/

/-- Reading a register after a register write. -/
@[simp] theorem State.reg_setReg (s : State) (r : RegNum) (v : Word) (q : RegNum) :
    (s.setReg r v).reg q = if q = r then v else s.reg q := by
  unfold State.setReg State.reg
  simp [Vector.get_eq_getElem, Vector.getElem_set, BitVec.toNat_inj, eq_comm]

/-- Reading a register after a write of the PC. -/
@[simp] theorem State.reg_setPc (s : State) (v : Word) (q : RegNum) :
    (s.setPc v).reg q = if q = pcNum then v else s.reg q := State.reg_setReg s pcNum v q

/-- `pc` names `x[31]` (R9, R23). -/
@[simp] theorem State.pc_eq (s : State) : s.pc = s.reg pcNum := rfl

/-- Two register files that agree on every register are equal. -/
theorem regs_ext {a b : State} (h : ∀ r : RegNum, a.reg r = b.reg r) : a.regs = b.regs := by
  apply Vector.ext
  intro i hi
  have h1 := h (BitVec.ofNat 5 i)
  simpa [State.reg, Vector.get_eq_getElem, Nat.mod_eq_of_lt hi] using h1

/-- Writing a register the value it holds changes nothing. -/
theorem State.setReg_eq_self {s : State} {r : RegNum} {v : Word} (h : s.reg r = v) : s.setReg r v = s := by
  have h2 : (s.setReg r v).regs = s.regs := regs_ext fun q => by
    by_cases hq : q = r <;> simp [hq, h]
  cases s
  simpa [State.setReg] using h2

@[simp] theorem State.foft_eq (s : State) : s.foft = s.cr0.getLsbD 3 := rfl

end Sys2Proof.Machine
end

