-- ==== Sys2Proof/Laws/Memory.lean ====
section
/-! SUPPORT. The laws of a RAM's storage: a read after a write, the canonical form, and what a write of
several bytes does to each byte. -/

namespace Sys2Proof.Machine

/-! ### One byte -/

theorem Memory.read_of_lt {lo : Nat} : ∀ {m : Memory} {a : Nat}, Memory.wfFrom lo m = true → a < lo →
    Memory.read m a = Config.ramBackground
  | [], _, _, _ => rfl
  | (k, b) :: rest, a, h, ha => by
    simp only [Memory.wfFrom, Bool.and_eq_true, decide_eq_true_eq] at h
    have : k ≠ a := by omega
    simp only [Memory.read, if_neg this]
    exact Memory.read_of_lt h.2 (by omega)

/-- A read after a write: the byte written at its own address, every other byte as before. -/
theorem Memory.read_write {lo : Nat} : ∀ {m : Memory}, Memory.wfFrom lo m = true → ∀ (a : Nat) (v : Byte)
    (c : Nat), Memory.read (Memory.write m a v) c = if c = a then v else Memory.read m c
  | [], _, a, v, c => by
    have hc : (a = c) = (c = a) := propext eq_comm
    by_cases hv : v = Config.ramBackground <;> by_cases c = a <;> simp_all [Memory.write, Memory.read]
  | (k, b) :: rest, h, a, v, c => by
    simp only [Memory.wfFrom, Bool.and_eq_true, decide_eq_true_eq] at h
    have ih := Memory.read_write h.2 a v c
    have below : ∀ x, x ≤ k → Memory.read rest x = Config.ramBackground := fun x hx =>
      Memory.read_of_lt h.2 (by omega)
    unfold Memory.write
    by_cases h1 : a < k
    · by_cases hv : v = Config.ramBackground
      · by_cases hc : c = a
        · subst hc
          have : k ≠ c := by omega
          simp [h1, hv, Memory.read, this, below c (by omega)]
        · simp [h1, hv, hc]
      · by_cases hc : c = a
        · simp [h1, hv, hc, Memory.read]
        · have : a ≠ c := fun e => hc e.symm
          simp [h1, hv, hc, Memory.read, this]
    · by_cases h2 : a = k
      · subst h2
        by_cases hv : v = Config.ramBackground
        · by_cases hc : c = a
          · subst hc
            simp [hv, below c (le_refl c)]
          · have : a ≠ c := fun e => hc e.symm
            simp [hv, hc, Memory.read, this]
        · by_cases hc : c = a
          · simp [hv, hc, Memory.read]
          · have : a ≠ c := fun e => hc e.symm
            simp [hv, hc, Memory.read, this]
      · by_cases hk : k = c
        · subst hk
          have : k ≠ a := fun e => h2 e.symm
          simp [h1, h2, Memory.read, this]
        · simp [h1, h2, Memory.read, hk, ih]

/-- A write keeps the canonical form. -/
theorem Memory.wfFrom_write : ∀ {m : Memory} {lo : Nat}, Memory.wfFrom lo m = true → ∀ (a : Nat) (v : Byte),
    lo ≤ a → Memory.wfFrom lo (Memory.write m a v) = true
  | [], lo, _, a, v, hlo => by
    by_cases hv : v = Config.ramBackground <;> simp [Memory.write, Memory.wfFrom, hv, hlo]
  | (k, b) :: rest, lo, h, a, v, hlo => by
    simp only [Memory.wfFrom, Bool.and_eq_true, decide_eq_true_eq] at h
    obtain ⟨⟨hk, hb⟩, hrest⟩ := h
    have weaken : ∀ {m : Memory} {x y : Nat}, x ≤ y → Memory.wfFrom y m = true → Memory.wfFrom x m = true := by
      intro m x y hxy hm
      cases m with
      | nil => rfl
      | cons c r =>
        simp only [Memory.wfFrom, Bool.and_eq_true, decide_eq_true_eq] at hm ⊢
        exact ⟨⟨by omega, hm.1.2⟩, hm.2⟩
    unfold Memory.write
    by_cases h1 : a < k
    · by_cases hv : v = Config.ramBackground
      · simp [h1, hv, Memory.wfFrom, hk, hb, hrest]
      · simp only [h1, if_true, hv, if_false, Memory.wfFrom, Bool.and_eq_true, decide_eq_true_eq]
        exact ⟨⟨hlo, hv⟩, ⟨by omega, hb⟩, hrest⟩
    · by_cases h2 : a = k
      · subst h2
        by_cases hv : v = Config.ramBackground
        · simpa [hv] using weaken (by omega) hrest
        · simp only [Nat.lt_irrefl, if_false, if_true, hv, Memory.wfFrom, Bool.and_eq_true, decide_eq_true_eq]
          exact ⟨⟨hk, hv⟩, hrest⟩
      · simp only [h1, if_false, h2, Memory.wfFrom, Bool.and_eq_true, decide_eq_true_eq]
        exact ⟨⟨hk, hb⟩, Memory.wfFrom_write hrest a v (by omega)⟩

/-- A write keeps the canonical form. -/
theorem Memory.wf_write {m : Memory} (h : Memory.wf m = true) (a : Nat) (v : Byte) :
    Memory.wf (Memory.write m a v) = true := Memory.wfFrom_write h a v (Nat.zero_le a)

/-- A write below `size` keeps every listed address below `size`. -/
theorem Memory.below_write {size : Nat} : ∀ {m : Memory}, Memory.below size m = true → ∀ (a : Nat) (v : Byte),
    a < size → Memory.below size (Memory.write m a v) = true
  | [], _, a, v, ha => by
    by_cases hv : v = Config.ramBackground <;> simp [Memory.write, Memory.below, hv, ha]
  | (k, b) :: rest, h, a, v, ha => by
    have hk : k < size ∧ Memory.below size rest = true := by
      simpa [Memory.below] using h
    have ih := Memory.below_write hk.2 a v ha
    unfold Memory.write
    split
    · split
      · exact h
      · simpa [Memory.below, ha] using h
    · split
      · split
        · exact hk.2
        · simpa [Memory.below, ha] using hk.2
      · simpa [Memory.below, hk.1] using ih

/-- Two canonical memories that read the same everywhere are equal data. -/
theorem Memory.ext_of_read : ∀ {m n : Memory} {lo : Nat}, Memory.wfFrom lo m = true → Memory.wfFrom lo n = true →
    (∀ a, Memory.read m a = Memory.read n a) → m = n
  | [], [], _, _, _, _ => rfl
  | [], (k, b) :: n, _, _, hn, h => by
    simp only [Memory.wfFrom, Bool.and_eq_true, decide_eq_true_eq] at hn
    have := h k
    simp [Memory.read] at this
    exact absurd this.symm hn.1.2
  | (k, b) :: m, [], _, hm, _, h => by
    simp only [Memory.wfFrom, Bool.and_eq_true, decide_eq_true_eq] at hm
    have := h k
    simp [Memory.read] at this
    exact absurd this hm.1.2
  | (k, b) :: m, (k', b') :: n, lo, hm, hn, h => by
    simp only [Memory.wfFrom, Bool.and_eq_true, decide_eq_true_eq] at hm hn
    have hk : k = k' := by
      rcases Nat.lt_trichotomy k k' with hlt | heq | hgt
      · have h1 := h k
        have : k' ≠ k := by omega
        simp only [Memory.read, if_true, if_neg this, Memory.read_of_lt hn.2 (show k < k' + 1 by omega)] at h1
        exact absurd h1 hm.1.2
      · exact heq
      · have h1 := h k'
        have : k ≠ k' := by omega
        simp only [Memory.read, if_true, if_neg this, Memory.read_of_lt hm.2 (show k' < k + 1 by omega)] at h1
        exact absurd h1.symm hn.1.2
    subst hk
    have hb : b = b' := by simpa [Memory.read] using h k
    subst hb
    have : m = n := Memory.ext_of_read hm.2 hn.2 fun a => by
      by_cases ha : k = a
      · subst ha
        rw [Memory.read_of_lt hm.2 (Nat.lt_succ_self k), Memory.read_of_lt hn.2 (Nat.lt_succ_self k)]
      · simpa [Memory.read, ha] using h a
    rw [this]

/-! ### A RAM -/

theorem ramByte_writeByte {m : Memory} (h : Memory.wf m = true) (size a : Nat) (v : Byte) (c : Nat) :
    ramByte size (ramWriteByte size m a v) c = if c = a ∧ a < size then v else ramByte size m c := by
  unfold ramByte ramWriteByte
  by_cases ha : a < size
  · simp only [ha, if_true, and_true, Memory.read_write h]
    by_cases hc : c = a
    · simp [hc, ha]
    · simp [hc]
  · simp [ha]

theorem ramWriteByte_wf {m : Memory} {size : Nat} (h : Memory.wf m = true ∧ Memory.below size m = true) (a : Nat)
    (v : Byte) : Memory.wf (ramWriteByte size m a v) = true ∧ Memory.below size (ramWriteByte size m a v) = true := by
  unfold ramWriteByte
  split
  · exact ⟨Memory.wf_write h.1 a v, Memory.below_write h.2 a v ‹_›⟩
  · exact h

theorem ramWriteBytes_wf {m : Memory} {size : Nat} (h : Memory.wf m = true ∧ Memory.below size m = true) (a : Nat)
    (v : Word) : ∀ n, Memory.wf (ramWriteBytes size a v n m) = true ∧ Memory.below size (ramWriteBytes size a v n m) = true
  | 0 => h
  | n + 1 => ramWriteByte_wf (ramWriteBytes_wf h a v n) (a + n) (byteOf v n)

/-- A RAM's write keeps the canonical form and stays inside the RAM. -/
theorem ramWrite_wf {m : Memory} {size : Nat} (h : Memory.wf m = true ∧ Memory.below size m = true) (a : Nat)
    (v : Word) (sz : SizeCode) : Memory.wf (ramWrite size m a v sz) = true ∧ Memory.below size (ramWrite size m a v sz) = true :=
  ramWriteBytes_wf h a v (accessBytes sz)

theorem ramWriteByte_wfOnly {m : Memory} (h : Memory.wf m = true) (size a : Nat) (v : Byte) :
    Memory.wf (ramWriteByte size m a v) = true := by
  unfold ramWriteByte
  split
  · exact Memory.wf_write h a v
  · exact h

theorem ramWriteBytes_wfOnly {m : Memory} (h : Memory.wf m = true) (size a : Nat) (v : Word) :
    ∀ n, Memory.wf (ramWriteBytes size a v n m) = true
  | 0 => h
  | n + 1 => ramWriteByte_wfOnly (ramWriteBytes_wfOnly h size a v n) size (a + n) (byteOf v n)

/-- Everything a RAM's write does, byte by byte: byte `i` of the value at local address `a + i`, for the
bytes the access moves that lie inside the RAM; every other byte as before. -/
theorem ramByte_writeBytes {m : Memory} (h : Memory.wf m = true) (size a : Nat) (v : Word) : ∀ (n c : Nat),
    ramByte size (ramWriteBytes size a v n m) c =
      if a ≤ c ∧ c < a + n ∧ c < size then byteOf v (c - a) else ramByte size m c
  | 0, c => by
    have : ¬ (a ≤ c ∧ c < a + 0 ∧ c < size) := by omega
    rw [if_neg this]; rfl
  | n + 1, c => by
    show ramByte size (ramWriteByte size (ramWriteBytes size a v n m) (a + n) (byteOf v n)) c = _
    rw [ramByte_writeByte (ramWriteBytes_wfOnly h size a v n), ramByte_writeBytes h size a v n c]
    by_cases h1 : c = a + n ∧ a + n < size
    · have h2 : a ≤ c ∧ c < a + (n + 1) ∧ c < size := by omega
      have h3 : c - a = n := by omega
      rw [if_pos h1, if_pos h2, h3]
    · rw [if_neg h1]
      by_cases h2 : a ≤ c ∧ c < a + n ∧ c < size
      · rw [if_pos h2, if_pos (by omega)]
      · rw [if_neg h2, if_neg (by omega)]

/-- Everything a RAM's write of a size code does. -/
theorem ramByte_write {m : Memory} (h : Memory.wf m = true) (size a : Nat) (v : Word) (sz : SizeCode) (c : Nat) :
    ramByte size (ramWrite size m a v sz) c =
      if a ≤ c ∧ c < a + accessBytes sz ∧ c < size then byteOf v (c - a) else ramByte size m c :=
  ramByte_writeBytes h size a v (accessBytes sz) c

end Sys2Proof.Machine
end

