-- ==== Sys2Proof/Laws/Bus.lean ====
section
/-! SUPPORT. What the bus can do (R61 to R66): open bus, the first owner, and what one device call leaves
of the attachment, the storage form and the bytes of memory. -/

namespace Sys2Proof.Machine

/-! ### Owners -/

theorem devicesRead_unowned : ∀ {ds : List MemDevice} {pa : Word}, ownerOf ds pa = none → ∀ sz,
    devicesRead ds pa sz = (Config.openBus, ds)
  | [], _, _, _ => rfl
  | d :: ds, pa, h, sz => by
    have hd : d.owns pa = false ∧ ownerOf ds pa = none := by
      simpa [ownerOf] using h
    simp [devicesRead, hd.1, devicesRead_unowned hd.2 sz]

theorem devicesWrite_unowned : ∀ {ds : List MemDevice} {pa : Word}, ownerOf ds pa = none → ∀ sz v,
    devicesWrite ds pa sz v = ds
  | [], _, _, _, _ => rfl
  | d :: ds, pa, h, sz, v => by
    have hd : d.owns pa = false ∧ ownerOf ds pa = none := by
      simpa [ownerOf] using h
    simp [devicesWrite, hd.1, devicesWrite_unowned hd.2 sz v]

/-- A read of an owned address: the owner's answer, masked, and the one call it received (R63). -/
theorem devicesRead_owned : ∀ {ds : List MemDevice} {pa : Word} {d : MemDevice}, ownerOf ds pa = some d → ∀ sz,
    ∃ pre post, ds = pre ++ d :: post ∧ (∀ e ∈ pre, e.owns pa = false) ∧ d.owns pa = true ∧
      devicesRead ds pa sz =
        (sizeMask (d.read (d.localAddr pa) sz).1 sz, pre ++ (d.read (d.localAddr pa) sz).2 :: post)
  | [], _, _, h, _ => by simp [ownerOf] at h
  | e :: ds, pa, d, h, sz => by
    by_cases he : e.owns pa = true
    · have : e = d := by simpa [ownerOf, he] using h
      subst this
      exact ⟨[], ds, rfl, by simp, he, by simp [devicesRead, he]⟩
    · have he : e.owns pa = false := by simpa using he
      have h' : ownerOf ds pa = some d := by simpa [ownerOf, he] using h
      obtain ⟨pre, post, h1, h2, h3, h4⟩ := devicesRead_owned h' sz
      refine ⟨e :: pre, post, by simp [h1], ?_, h3, by simp [devicesRead, he, h4]⟩
      intro x hx
      rcases List.mem_cons.1 hx with rfl | hx
      · exact he
      · exact h2 x hx

/-- A write to an owned address: the one call its owner received (R65). -/
theorem devicesWrite_owned : ∀ {ds : List MemDevice} {pa : Word} {d : MemDevice}, ownerOf ds pa = some d →
    ∀ sz v, ∃ pre post, ds = pre ++ d :: post ∧ (∀ e ∈ pre, e.owns pa = false) ∧ d.owns pa = true ∧
      devicesWrite ds pa sz v = pre ++ d.write (d.localAddr pa) (sizeMask v sz) sz :: post
  | [], _, _, h, _, _ => by simp [ownerOf] at h
  | e :: ds, pa, d, h, sz, v => by
    by_cases he : e.owns pa = true
    · have : e = d := by simpa [ownerOf, he] using h
      subst this
      exact ⟨[], ds, rfl, by simp, he, by simp [devicesWrite, he]⟩
    · have he : e.owns pa = false := by simpa using he
      have h' : ownerOf ds pa = some d := by simpa [ownerOf, he] using h
      obtain ⟨pre, post, h1, h2, h3, h4⟩ := devicesWrite_owned h' sz v
      refine ⟨e :: pre, post, by simp [h1], ?_, h3, by simp [devicesWrite, he, h4]⟩
      intro x hx
      rcases List.mem_cons.1 hx with rfl | hx
      · exact he
      · exact h2 x hx

/-! ### What a device keeps -/

/-- A device's range and kind (R61). -/
def MemDevice.shape (d : MemDevice) : Nat × Nat × DeviceKind := (d.start, d.stop, d.kind)

@[simp] theorem MemDevice.read_shape (d : MemDevice) (a : Word) (sz : SizeCode) :
    (d.read a sz).2.shape = d.shape := by
  unfold MemDevice.read MemDevice.shape MemDevice.kind
  cases h : d.body <;> simp [h]

@[simp] theorem MemDevice.write_shape (d : MemDevice) (a v : Word) (sz : SizeCode) :
    (d.write a v sz).shape = d.shape := by
  unfold MemDevice.write MemDevice.shape MemDevice.kind
  cases h : d.body <;> simp

theorem MemDevice.read_ram {d : MemDevice} {cells : Memory} (h : d.body = .ram cells) (a : Word) (sz : SizeCode) :
    d.read a sz = (ramRead d.size cells a.toNat sz, d) := by
  unfold MemDevice.read; simp [h]

theorem MemDevice.write_ram {d : MemDevice} {cells : Memory} (h : d.body = .ram cells) (a v : Word) (sz : SizeCode) :
    d.write a v sz = { d with body := .ram (ramWrite d.size cells a.toNat v sz) } := by
  unfold MemDevice.write; simp [h]

theorem MemDevice.read_wf {d : MemDevice} (h : d.wf = true) (a : Word) (sz : SizeCode) :
    (d.read a sz).2.wf = true := by
  unfold MemDevice.read
  cases hb : d.body with
  | ram cells => exact h
  | external id calls => rfl

theorem MemDevice.write_wf {d : MemDevice} (h : d.wf = true) (a v : Word) (sz : SizeCode) :
    (d.write a v sz).wf = true := by
  unfold MemDevice.write
  cases hb : d.body with
  | ram cells =>
    have h' : Memory.wf cells = true ∧ Memory.below d.size cells = true := by
      simpa [MemDevice.wf, hb] using h
    have := ramWrite_wf h' a.toNat v sz
    simpa [MemDevice.wf, MemDevice.size] using this
  | external id calls => rfl

/-- A device call changes no device's range or kind, and their order (R61). -/
theorem devicesRead_shape : ∀ (ds : List MemDevice) (pa : Word) (sz : SizeCode),
    (devicesRead ds pa sz).2.map MemDevice.shape = ds.map MemDevice.shape
  | [], _, _ => rfl
  | d :: ds, pa, sz => by
    unfold devicesRead
    split
    · simp
    · simp [devicesRead_shape ds pa sz]

theorem devicesWrite_shape : ∀ (ds : List MemDevice) (pa : Word) (sz : SizeCode) (v : Word),
    (devicesWrite ds pa sz v).map MemDevice.shape = ds.map MemDevice.shape
  | [], _, _, _ => rfl
  | d :: ds, pa, sz, v => by
    unfold devicesWrite
    split
    · simp
    · simp [devicesWrite_shape ds pa sz v]

theorem devicesRead_wf : ∀ {ds : List MemDevice}, ds.all MemDevice.wf = true → ∀ (pa : Word) (sz : SizeCode),
    (devicesRead ds pa sz).2.all MemDevice.wf = true
  | [], _, _, _ => rfl
  | d :: ds, h, pa, sz => by
    have h' : d.wf = true ∧ ds.all MemDevice.wf = true := by simpa using h
    unfold devicesRead
    split
    · simpa [List.all_cons, MemDevice.read_wf h'.1] using h'.2
    · simpa [List.all_cons, h'.1] using devicesRead_wf h'.2 pa sz

theorem devicesWrite_wf : ∀ {ds : List MemDevice}, ds.all MemDevice.wf = true → ∀ (pa : Word) (sz : SizeCode)
    (v : Word), (devicesWrite ds pa sz v).all MemDevice.wf = true
  | [], _, _, _, _ => rfl
  | d :: ds, h, pa, sz, v => by
    have h' : d.wf = true ∧ ds.all MemDevice.wf = true := by simpa using h
    unfold devicesWrite
    split
    · simpa [List.all_cons, MemDevice.write_wf h'.1] using h'.2
    · simpa [List.all_cons, h'.1] using devicesWrite_wf h'.2 pa sz v

/-! ### Bytes of memory -/

/-- The byte a RAM device shows at a local address; none for an external device. -/
def MemDevice.peek (d : MemDevice) (a : Nat) : Option Byte :=
  match d.body with
  | .ram cells => some (ramByte d.size cells a)
  | .external _ _ => none

theorem peekByte_eq (s : State) (pa : Word) :
    s.peekByte pa = (ownerOf s.devices pa).bind fun d => d.peek (pa.toNat - d.start) := by
  unfold State.peekByte MemDevice.peek
  cases ownerOf s.devices pa with
  | none => rfl
  | some d => cases h : d.body <;> simp [h]

theorem ramAt_eq (s : State) (k a : Nat) : s.ramAt k a = (s.devices[k]?).bind fun d => d.peek a := by
  unfold State.ramAt MemDevice.peek
  cases s.devices[k]? with
  | none => rfl
  | some d => cases h : d.body <;> simp [h]

/-- A byte of memory depends on the devices alone. -/
theorem peekByte_congr {s t : State} (h : t.devices = s.devices) (pa : Word) : t.peekByte pa = s.peekByte pa := by
  unfold State.peekByte; rw [h]

@[simp] theorem MemDevice.read_peek (d : MemDevice) (a : Word) (sz : SizeCode) (c : Nat) :
    (d.read a sz).2.peek c = d.peek c := by
  unfold MemDevice.read MemDevice.peek
  cases h : d.body <;> simp [h]

theorem MemDevice.shape_owns {d e : MemDevice} (h : d.shape = e.shape) (pa : Word) : d.owns pa = e.owns pa := by
  have : d.start = e.start ∧ d.stop = e.stop := by
    have h1 := congrArg Prod.fst h
    have h2 := congrArg (fun x => x.2.1) h
    exact ⟨h1, h2⟩
  unfold MemDevice.owns
  rw [this.1, this.2]

/-- No device read changes a byte of memory (R72: the core sees side effects only where a device has
them, and a RAM has none). -/
theorem devicesRead_peek : ∀ (ds : List MemDevice) (pa : Word) (sz : SizeCode) (q : Word),
    ((ownerOf (devicesRead ds pa sz).2 q).bind fun d => d.peek (q.toNat - d.start)) =
      (ownerOf ds q).bind fun d => d.peek (q.toNat - d.start)
  | [], _, _, _ => rfl
  | d :: ds, pa, sz, q => by
    have ih := devicesRead_peek ds pa sz q
    have hs := d.read_shape (d.localAddr pa) sz
    have ho := MemDevice.shape_owns hs q
    have hstart : (d.read (d.localAddr pa) sz).2.start = d.start := congrArg Prod.fst hs
    unfold devicesRead
    split
    · by_cases hq : d.owns q = true
      · simp [ownerOf, ho, hq, hstart]
      · simp [ownerOf, ho, hq]
    · by_cases hq : d.owns q = true
      · simp [ownerOf, hq]
      · simpa [ownerOf, hq] using ih

theorem peekByte_busRead (s : State) (pa : Word) (sz : SizeCode) (q : Word) :
    (s.busRead pa sz).2.peekByte q = s.peekByte q := by
  rw [peekByte_eq, peekByte_eq]
  exact devicesRead_peek s.devices pa sz q

/-! ### Ranges and places in the list -/

theorem MemDevice.owns_iff (d : MemDevice) (pa : Word) :
    d.owns pa = true ↔ d.start ≤ pa.toNat ∧ pa.toNat < d.stop := by
  unfold MemDevice.owns; simp

theorem MemDevice.localAddr_toNat (d : MemDevice) (pa : Word) : (d.localAddr pa).toNat = pa.toNat - d.start := by
  have := pa.isLt
  simp only [MemDevice.localAddr, BitVec.toNat_ofNat]
  omega

/-- A read of the device that is the first owner (R62, R63). -/
theorem devicesRead_append (before after : List MemDevice) (d : MemDevice) (pa : Word) (sz : SizeCode)
    (h : ∀ b ∈ before, b.owns pa = false) (hd : d.owns pa = true) :
    devicesRead (before ++ d :: after) pa sz =
      (sizeMask (d.read (d.localAddr pa) sz).1 sz, before ++ (d.read (d.localAddr pa) sz).2 :: after) := by
  induction before with
  | nil => simp [devicesRead, hd]
  | cons b bs ih => simp [devicesRead, h b (by simp), ih fun x hx => h x (by simp [hx])]

/-- A write to the device that is the first owner (R62, R65). -/
theorem devicesWrite_append (before after : List MemDevice) (d : MemDevice) (pa v : Word) (sz : SizeCode)
    (h : ∀ b ∈ before, b.owns pa = false) (hd : d.owns pa = true) :
    devicesWrite (before ++ d :: after) pa sz v =
      before ++ d.write (d.localAddr pa) (sizeMask v sz) sz :: after := by
  induction before with
  | nil => simp [devicesWrite, hd]
  | cons b bs ih => simp [devicesWrite, h b (by simp), ih fun x hx => h x (by simp [hx])]

/-! ### Ports -/

/-- A port that no device has reads open bus and drops writes (R66). -/
theorem ports_unowned : ∀ {ds : List PortDevice} {port : BitVec 16}, (∀ d ∈ ds, d.owns port = false) → ∀ sz v,
    portsRead ds port sz = (Config.openBus, ds) ∧ portsWrite ds port sz v = ds
  | [], _, _, _, _ => ⟨rfl, rfl⟩
  | d :: ds, port, h, sz, v => by
    have ih := ports_unowned (ds := ds) (port := port) (fun x hx => h x (by simp [hx])) sz v
    simp [portsRead, portsWrite, h d (by simp), ih]

/-- A read of the first device that has the port: its answer, masked, and the one call it received (R16,
R66). -/
theorem portsRead_append (before after : List PortDevice) (d : PortDevice) (port : BitVec 16) (sz : SizeCode)
    (h : ∀ b ∈ before, b.owns port = false) (hd : d.owns port = true) :
    portsRead (before ++ d :: after) port sz =
      (sizeMask (d.read port sz).1 sz, before ++ (d.read port sz).2 :: after) := by
  induction before with
  | nil => simp [portsRead, hd]
  | cons b bs ih => simp [portsRead, h b (by simp), ih fun x hx => h x (by simp [hx])]

/-- A write to the first device that has the port (R66). -/
theorem portsWrite_append (before after : List PortDevice) (d : PortDevice) (port : BitVec 16) (sz : SizeCode)
    (v : Word) (h : ∀ b ∈ before, b.owns port = false) (hd : d.owns port = true) :
    portsWrite (before ++ d :: after) port sz v = before ++ d.write port v sz :: after := by
  induction before with
  | nil => simp [portsWrite, hd]
  | cons b bs ih => simp [portsWrite, h b (by simp), ih fun x hx => h x (by simp [hx])]

/-! ### Bytes after a write -/

/-- The bytes an access moves are those of the value it is given; truncation keeps them (R10, R65). -/
theorem byteOf_sizeMask (v : Word) (sz : SizeCode) (k : Nat) (h : k < accessBytes sz) :
    byteOf (sizeMask v sz) k = v.extractLsb' (8 * k) 8 := by
  have low : ∀ n : Nat, n ≤ 32 → 8 * k + 8 ≤ n →
      (v &&& BitVec.ofNat 32 (2 ^ n - 1)).extractLsb' (8 * k) 8 = v.extractLsb' (8 * k) 8 := by
    intro n hn hk
    apply BitVec.eq_of_getLsbD_eq
    intro j hj
    simp only [BitVec.getLsbD_extractLsb', BitVec.getLsbD_and, BitVec.getLsbD_ofNat, Nat.testBit_two_pow_sub_one]
    have h1 : 8 * k + j < 32 := by omega
    have h2 : 8 * k + j < n := by omega
    simp [h1, h2]
  cases sz with
  | byte => exact low 8 (by decide) (by simp only [accessBytes] at h; omega)
  | short => exact low 16 (by decide) (by simp only [accessBytes] at h; omega)
  | long => rfl
  | execute => rfl

theorem MemDevice.ram_wf {d : MemDevice} {cells : Memory} (hb : d.body = .ram cells) (h : d.wf = true) :
    Memory.wf cells = true := by
  unfold MemDevice.wf at h
  rw [hb] at h
  simp only [Bool.and_eq_true] at h
  exact h.1

/-- What a RAM shows at a local address after a write through the bus. -/
theorem MemDevice.write_peek {d : MemDevice} (hwf : d.wf = true) (pa v : Word) (sz : SizeCode) (hp : d.owns pa = true)
    (q : Word) (hq : d.owns q = true) :
    (d.write (d.localAddr pa) (sizeMask v sz) sz).peek (q.toNat - d.start) =
      match d.body with
      | .ram _ =>
        if pa.toNat ≤ q.toNat ∧ q.toNat < pa.toNat + accessBytes sz then
          some (byteOf (sizeMask v sz) (q.toNat - pa.toNat))
        else d.peek (q.toNat - d.start)
      | .external _ _ => none := by
  have hp' := (d.owns_iff pa).1 hp
  have hq' := (d.owns_iff q).1 hq
  cases hb : d.body with
  | external id calls => unfold MemDevice.write MemDevice.peek; simp [hb]
  | ram cells =>
    rw [MemDevice.write_ram hb]
    simp only [MemDevice.peek, hb, MemDevice.size, ramByte_write (MemDevice.ram_wf hb hwf), MemDevice.localAddr_toNat]
    have hsub : q.toNat - d.start - (pa.toNat - d.start) = q.toNat - pa.toNat := by omega
    by_cases h : pa.toNat ≤ q.toNat ∧ q.toNat < pa.toNat + accessBytes sz
    · rw [if_pos h, if_pos (by omega), hsub]
    · rw [if_neg h, if_neg (by omega)]

theorem MemDevice.write_owns (d : MemDevice) (a v : Word) (sz : SizeCode) (q : Word) :
    (d.write a v sz).owns q = d.owns q := MemDevice.shape_owns (d.write_shape a v sz) q

theorem MemDevice.write_start (d : MemDevice) (a v : Word) (sz : SizeCode) : (d.write a v sz).start = d.start :=
  congrArg Prod.fst (d.write_shape a v sz)

/-- An address outside the bytes of the access reads as before. -/
theorem devicesWrite_peek_outside : ∀ (ds : List MemDevice), ds.all MemDevice.wf = true → ∀ (pa v : Word)
    (sz : SizeCode) (q : Word), (∀ k : Nat, k < accessBytes sz → q.toNat ≠ pa.toNat + k) →
    ((ownerOf (devicesWrite ds pa sz v) q).bind fun d => d.peek (q.toNat - d.start)) =
      (ownerOf ds q).bind fun d => d.peek (q.toNat - d.start)
  | [], _, _, _, _, _, _ => rfl
  | d :: ds, hwf, pa, v, sz, q, h => by
    have hwf' : d.wf = true ∧ ds.all MemDevice.wf = true := by simpa using hwf
    have ih := devicesWrite_peek_outside ds hwf'.2 pa v sz q h
    have hout : ¬(pa.toNat ≤ q.toNat ∧ q.toNat < pa.toNat + accessBytes sz) := fun hh =>
      h (q.toNat - pa.toNat) (by omega) (by omega)
    unfold devicesWrite
    by_cases hp : d.owns pa = true
    · rw [if_pos hp]
      simp only [ownerOf, List.find?_cons, MemDevice.write_owns]
      cases hq : d.owns q with
      | false => rfl
      | true =>
        simp only [Option.bind_some, MemDevice.write_start]
        rw [MemDevice.write_peek hwf'.1 pa v sz hp q hq]
        cases hb : d.body with
        | external id calls => simp [MemDevice.peek, hb]
        | ram cells => exact if_neg hout
    · rw [if_neg hp]
      unfold ownerOf at *
      simp only [List.find?_cons]
      cases d.owns q with
      | false => exact ih
      | true => rfl

/-- A byte of the access, where the RAM that owns the access's address owns its address too. -/
theorem devicesWrite_peek_inside : ∀ (ds : List MemDevice), ds.all MemDevice.wf = true → ∀ (pa v : Word)
    (sz : SizeCode) (q : Word) (d : MemDevice) (cells : Memory) (k : Nat), ownerOf ds pa = some d →
    d.body = .ram cells → k < accessBytes sz → q.toNat = pa.toNat + k → ownerOf ds q = some d →
    ((ownerOf (devicesWrite ds pa sz v) q).bind fun d => d.peek (q.toNat - d.start)) =
      some (byteOf (sizeMask v sz) k)
  | [], _, _, _, _, _, _, _, _, h, _, _, _, _ => by cases h
  | e :: ds, hwf, pa, v, sz, q, d, cells, k, h, hb, hk, hq, hoq => by
    have hwf' : e.wf = true ∧ ds.all MemDevice.wf = true := by simpa using hwf
    have hdp : d.owns pa = true := by simpa using List.find?_some h
    have hdq : d.owns q = true := by simpa using List.find?_some hoq
    unfold devicesWrite
    by_cases hp : e.owns pa = true
    · rw [if_pos hp]
      have hed : e = d := by
        unfold ownerOf at h; rw [List.find?_cons, hp] at h; injection h
      subst hed
      simp only [ownerOf, List.find?_cons, MemDevice.write_owns, hdq, Option.bind_some, MemDevice.write_start]
      rw [MemDevice.write_peek hwf'.1 pa v sz hp q hdq]
      simp only [hb]
      rw [if_pos (by omega)]
      congr 2; omega
    · rw [if_neg hp]
      have hnq : ¬e.owns q = true := by
        intro he
        have hed : e = d := by
          unfold ownerOf at hoq; rw [List.find?_cons, he] at hoq; injection hoq
        exact hp (hed ▸ hdp)
      unfold ownerOf at *
      simp only [List.find?_cons, hp, hnq] at h hoq ⊢
      exact devicesWrite_peek_inside ds hwf'.2 pa v sz q d cells k h hb hk hq hoq

/-- Memory after a store, outside the stored bytes (R165 to R167). -/
theorem peekByte_busWrite_outside {s : State} (h : s.wf = true) (pa v : Word) (sz : SizeCode) (q : Word)
    (hq : ∀ k : Nat, k < accessBytes sz → q.toNat ≠ pa.toNat + k) :
    (s.busWrite pa sz v).peekByte q = s.peekByte q := by
  rw [peekByte_eq, peekByte_eq]
  exact devicesWrite_peek_outside s.devices h pa v sz q hq

/-- Memory after a store, at the stored bytes: the lowest address has bits 7:0 (R69, R73). -/
theorem peekByte_busWrite_inside {s : State} (h : s.wf = true) {pa v : Word} {sz : SizeCode} {q : Word} {d : MemDevice}
    {cells : Memory} {k : Nat} (ho : ownerOf s.devices pa = some d) (hb : d.body = .ram cells)
    (hk : k < accessBytes sz) (hq : q.toNat = pa.toNat + k) (hoq : ownerOf s.devices q = some d) :
    (s.busWrite pa sz v).peekByte q = some (v.extractLsb' (8 * k) 8) := by
  rw [peekByte_eq, ← byteOf_sizeMask v sz k hk]
  exact devicesWrite_peek_inside s.devices h pa v sz q d cells k ho hb hk hq hoq

end Sys2Proof.Machine
end

