-- ==== Sys2Proof/Laws/Encoding.lean ====
section
/-! SUPPORT. The laws of a word's fields, and the decoding of every format's encoding. -/

namespace Sys2Proof

/-! ### Fields of a word -/

theorem getLsbD_place {k : Nat} (p : Nat) (x : BitVec k) (i : Nat) (h : p + k ≤ 32) :
    (place p x).getLsbD i = (decide (p ≤ i) && x.getLsbD (i - p)) := by
  unfold place
  simp only [BitVec.getLsbD_shiftLeft, BitVec.getLsbD_setWidth]
  by_cases h1 : i < 32
  · by_cases h2 : p ≤ i
    · have h3 : ¬ i < p := by omega
      have h4 : i - p < 32 := by omega
      simp [h1, h2, h3, h4]
    · have : i < p := by omega
      simp [h2, this]
  · by_cases h2 : p ≤ i
    · have : x.getLsbD (i - p) = false := BitVec.getLsbD_of_ge x _ (by omega)
      simp [this]
    · simp [h1, h2]

theorem bits_or (a b : Word) (lo len : Nat) : bits (a ||| b) lo len = bits a lo len ||| bits b lo len := by
  apply BitVec.eq_of_getLsbD_eq
  intro i hi
  simp [bits, BitVec.getLsbD_extractLsb', Bool.and_or_distrib_left]

theorem bits_place_same {k : Nat} (p : Nat) (x : BitVec k) (h : p + k ≤ 32) : bits (place p x) p k = x := by
  apply BitVec.eq_of_getLsbD_eq
  intro i hi
  simp only [bits, BitVec.getLsbD_extractLsb', getLsbD_place p x _ h]
  simp [hi]

theorem bits_place_off {k : Nat} (p : Nat) (x : BitVec k) (lo len : Nat) (h : p + k ≤ 32)
    (hd : p + k ≤ lo ∨ lo + len ≤ p) : bits (place p x) lo len = 0#len := by
  apply BitVec.eq_of_getLsbD_eq
  intro i hi
  simp only [bits, BitVec.getLsbD_extractLsb', getLsbD_place p x _ h]
  rcases hd with hd | hd
  · have : x.getLsbD (lo + i - p) = false := BitVec.getLsbD_of_ge x _ (by omega)
    simp [this]
  · have : ¬ p ≤ lo + i := by omega
    simp [this]

theorem flag_or (a b : Word) (i : Nat) : flag (a ||| b) i = (flag a i || flag b i) := by
  simp [flag]

theorem flag_place {k : Nat} (p : Nat) (x : BitVec k) (i : Nat) (h : p + k ≤ 32) :
    flag (place p x) i = (decide (p ≤ i) && x.getLsbD (i - p)) := getLsbD_place p x i h

theorem getLsbD_ofBool_zero (b : Bool) : (BitVec.ofBool b).getLsbD 0 = b := by cases b <;> rfl

/-! ### Codes -/

theorem AluOp.ofCode_code (op : AluOp) : AluOp.ofCode op.code = op := by cases op <;> rfl

theorem AluOp.code_ofCode (c : BitVec 4) : (AluOp.ofCode c).code = c := by revert c; decide

theorem Cond.ofCode_code (c : Cond) : Cond.ofCode c.code = some c := by cases c <;> rfl

theorem Cond.code_of_ofCode : ∀ (c : BitVec 3) (d : Cond), Cond.ofCode c = some d → d.code = c := by decide

/-! ### Every format decodes back -/

theorem decode_encodeAluReg (op : AluOp) (rd rs0 rs1 : RegNum) :
    decode (encodeAluReg op rd rs0 rs1) = .ok (.aluReg op rd rs0 rs1) := by
  simp [decode, decodeAlu, groupOf, encodeAluReg, bits_or, bits_place_same, bits_place_off, flag_or, flag_place,
    AluOp.ofCode_code]

theorem decode_encodeAluImm (op : AluOp) (rd : RegNum) (imm16 : BitVec 16) (s : Bool) :
    decode (encodeAluImm op rd imm16 s) = .ok (.aluImm op rd imm16 s) := by
  simp [decode, decodeAlu, groupOf, encodeAluImm, bits_or, bits_place_same, bits_place_off, flag_or, flag_place,
    AluOp.ofCode_code]

theorem groupOf_encodeBranchImm (c : Cond) (u : Bool) (ra rb : RegNum) (imm16 : BitVec 16) (l : Bool) :
    groupOf (encodeBranchImm c u ra rb imm16 l) = BitVec.ofBool u ++ c.code ++ 0#1 := by
  simp [groupOf, encodeBranchImm, bits_or, bits_place_off]
  cases c <;> cases u <;> rfl

theorem decode_encodeBranchImm (c : Cond) (u : Bool) (ra rb : RegNum) (imm16 : BitVec 16) (l : Bool) :
    decode (encodeBranchImm c u ra rb imm16 l) = .ok (.branchImm c u ra rb imm16 l) := by
  have hc : decode (encodeBranchImm c u ra rb imm16 l) = decodeConditional (encodeBranchImm c u ra rb imm16 l) := by
    unfold decode
    rw [groupOf_encodeBranchImm]
    cases c <;> cases u <;> rfl
  rw [hc]
  simp [decodeConditional, encodeBranchImm, bits_or, bits_place_same, bits_place_off, flag_or, flag_place,
    Cond.ofCode_code]

theorem groupOf_encodeSetCond (c : Cond) (rd rs : RegNum) (imm16 : BitVec 16) (s : Bool) :
    groupOf (encodeSetCond c rd rs imm16 s) = 1#1 ++ c.code ++ 1#1 := by
  simp [groupOf, encodeSetCond, bits_or, bits_place_off]
  cases c <;> rfl

theorem decode_encodeSetCond (c : Cond) (rd rs : RegNum) (imm16 : BitVec 16) (s : Bool) :
    decode (encodeSetCond c rd rs imm16 s) = .ok (.setCond c rd rs imm16 s) := by
  have hc : decode (encodeSetCond c rd rs imm16 s) = decodeConditional (encodeSetCond c rd rs imm16 s) := by
    unfold decode
    rw [groupOf_encodeSetCond]
    cases c <;> rfl
  rw [hc]
  simp [decodeConditional, encodeSetCond, bits_or, bits_place_same, bits_place_off, flag_or, flag_place,
    Cond.ofCode_code]

theorem decode_encodeBranchReg (c : Cond) (ra rb rt : RegNum) (r l : Bool) :
    decode (encodeBranchReg c ra rb rt r l) = .ok (.branchReg c ra rb rt r l) := by
  simp [decode, decodeBranchReg, groupOf, encodeBranchReg, bits_or, bits_place_same, bits_place_off, flag_or,
    flag_place, Cond.ofCode_code]

theorem decode_encodeSys (sop : BitVec 3) (imm24 : BitVec 24) :
    decode (encodeSys sop imm24) = decodeSys (encodeSys sop imm24) ∧
      bits (encodeSys sop imm24) 24 3 = sop ∧ bits (encodeSys sop imm24) 0 24 = imm24 := by
  simp [decode, groupOf, encodeSys, bits_or, bits_place_same, bits_place_off]

theorem decode_encodeCop (rd : RegNum) {creg cnum : Nat} (h : copSelectorFits creg cnum = true) :
    decode (encodeCop 0#5 rd creg cnum) = .ok (.mtcr rd creg cnum) ∧
      decode (encodeCop 1#5 rd creg cnum) = .ok (.mfcr rd creg cnum) := by
  have h' : creg < 1024 ∧ cnum < 32 := by simpa [copSelectorFits] using h
  simp [decode, decodeCop, groupOf, encodeCop, bits_or, bits_place_same, bits_place_off, Nat.mod_eq_of_lt h'.1,
    Nat.mod_eq_of_lt h'.2]

theorem decode_encodeLoadImm (rd : RegNum) (imm16 : BitVec 16) (s : Bool) {sh : Nat} (h : sh < 32) :
    decode (encodeLoadImm rd imm16 s sh) = .ok (.li rd imm16 s sh) := by
  simp [decode, decodeLoadImm, groupOf, encodeLoadImm, bits_or, bits_place_same, bits_place_off, flag_or,
    flag_place, Nat.mod_eq_of_lt h]

/-- The fields of a load/store word that lie outside the operands and the mode. -/
theorem encodeLoadStore_fields (lop size : BitVec 2) (rd : RegNum) (addr : AddrMode) :
    groupOf (encodeLoadStore lop size rd addr) = 16#5 ∧ bits (encodeLoadStore lop size rd addr) 22 5 = rd ∧
      bits (encodeLoadStore lop size rd addr) 5 2 = size ∧ bits (encodeLoadStore lop size rd addr) 3 2 = lop := by
  cases addr <;>
    simp [groupOf, encodeLoadStore, encodeAddrMode, encodeIndexed, encodeOffset, bits_or, bits_place_same,
      bits_place_off]

theorem decodeAddrMode_encodeLoadStore (lop size : BitVec 2) (rd : RegNum) {addr : AddrMode}
    (h : addr.wellFormed = true) : decodeAddrMode (encodeLoadStore lop size rd addr) = .ok addr := by
  cases addr with
  | immAdd rb imm10 =>
    simp [decodeAddrMode, encodeLoadStore, encodeAddrMode, encodeOffset, bits_or, bits_place_same, bits_place_off]
  | immSub rb imm10 =>
    simp [decodeAddrMode, encodeLoadStore, encodeAddrMode, encodeOffset, bits_or, bits_place_same, bits_place_off]
  | scaledAdd rb ri sc | scaledSub rb ri sc | shiftedAdd rb ri sc | shiftedSub rb ri sc =>
    have h' : sc < 32 := by simpa [AddrMode.wellFormed] using h
    simp [decodeAddrMode, encodeLoadStore, encodeAddrMode, encodeIndexed, bits_or, bits_place_same, bits_place_off,
      Nat.mod_eq_of_lt h']

/-- A load/store word decodes by its operation and size fields alone once its address is read. -/
theorem decode_encodeLoadStore (lop size : BitVec 2) (rd : RegNum) {addr : AddrMode} (h : addr.wellFormed = true) :
    decode (encodeLoadStore lop size rd addr) =
      match lop.toNat, size.toNat with
      | 0, 0 => .ok (.ldB rd addr)
      | 0, 1 => .ok (.ldH rd addr)
      | 0, 2 => .ok (.ldW rd addr)
      | 1, 0 => .ok (.stB rd addr)
      | 1, 1 => .ok (.stH rd addr)
      | 1, 2 => .ok (.stW rd addr)
      | 2, 0 => .ok (.leaB rd addr)
      | 2, 1 => .ok (.leaH rd addr)
      | 2, 2 => .ok (.leaW rd addr)
      | 3, _ => .error .lsOp
      | _, _ => .error .lsSize := by
  obtain ⟨h1, h2, h3, h4⟩ := encodeLoadStore_fields lop size rd addr
  simp only [decode, h1, decodeLoadStore, decodeAddrMode_encodeLoadStore lop size rd h, h2, h3, h4]
  rfl

end Sys2Proof
end

