-- ==== Sys2Proof/Laws/Exception.lean ====
section
/-! SUPPORT. What the flush, the dispatcher and the end of an instruction can do, said once (R28, R32,
R179, R181); later proofs cite these instead of unfolding them. -/

namespace Sys2Proof.Machine

/-! ### Fields the flush, the dispatcher and the end of an instruction leave alone -/

@[simp] theorem State.flushIfFoft_regs (s : State) : (s.flushIfFoft).regs = s.regs := by
  unfold State.flushIfFoft; split <;> rfl
@[simp] theorem State.flushIfFoft_pl (s : State) : (s.flushIfFoft).pl = s.pl := by
  unfold State.flushIfFoft; split <;> rfl
@[simp] theorem State.flushIfFoft_cr0 (s : State) : (s.flushIfFoft).cr0 = s.cr0 := by
  unfold State.flushIfFoft; split <;> rfl
@[simp] theorem State.flushIfFoft_cr1 (s : State) : (s.flushIfFoft).cr1 = s.cr1 := by
  unfold State.flushIfFoft; split <;> rfl
@[simp] theorem State.flushIfFoft_cause (s : State) : (s.flushIfFoft).cause = s.cause := by
  unfold State.flushIfFoft; split <;> rfl
@[simp] theorem State.flushIfFoft_handler (s : State) : (s.flushIfFoft).handler = s.handler := by
  unfold State.flushIfFoft; split <;> rfl
@[simp] theorem State.flushIfFoft_epc (s : State) : (s.flushIfFoft).epc = s.epc := by
  unfold State.flushIfFoft; split <;> rfl
@[simp] theorem State.flushIfFoft_mmucr (s : State) : (s.flushIfFoft).mmucr = s.mmucr := by
  unfold State.flushIfFoft; split <;> rfl
@[simp] theorem State.flushIfFoft_maps (s : State) : (s.flushIfFoft).maps = s.maps := by
  unfold State.flushIfFoft; split <;> rfl
@[simp] theorem State.flushIfFoft_devices (s : State) : (s.flushIfFoft).devices = s.devices := by
  unfold State.flushIfFoft; split <;> rfl
@[simp] theorem State.flushIfFoft_ports (s : State) : (s.flushIfFoft).ports = s.ports := by
  unfold State.flushIfFoft; split <;> rfl

@[simp] theorem State.flushIfFoft_reg (s : State) (q : RegNum) : s.flushIfFoft.reg q = s.reg q := by
  unfold State.flushIfFoft; split <;> rfl

@[simp] theorem State.endOfInstruction_pl (s : State) (flow : Bool) : (s.endOfInstruction flow).pl = s.pl := by
  unfold State.endOfInstruction; split <;> simp
@[simp] theorem State.endOfInstruction_cr0 (s : State) (flow : Bool) : (s.endOfInstruction flow).cr0 = s.cr0 := by
  unfold State.endOfInstruction; split <;> simp
@[simp] theorem State.endOfInstruction_cr1 (s : State) (flow : Bool) : (s.endOfInstruction flow).cr1 = s.cr1 := by
  unfold State.endOfInstruction; split <;> simp
@[simp] theorem State.endOfInstruction_cause (s : State) (flow : Bool) : (s.endOfInstruction flow).cause = s.cause := by
  unfold State.endOfInstruction; split <;> simp
@[simp] theorem State.endOfInstruction_handler (s : State) (flow : Bool) : (s.endOfInstruction flow).handler = s.handler := by
  unfold State.endOfInstruction; split <;> simp
@[simp] theorem State.endOfInstruction_epc (s : State) (flow : Bool) : (s.endOfInstruction flow).epc = s.epc := by
  unfold State.endOfInstruction; split <;> simp
@[simp] theorem State.endOfInstruction_mmucr (s : State) (flow : Bool) : (s.endOfInstruction flow).mmucr = s.mmucr := by
  unfold State.endOfInstruction; split <;> simp
@[simp] theorem State.endOfInstruction_maps (s : State) (flow : Bool) : (s.endOfInstruction flow).maps = s.maps := by
  unfold State.endOfInstruction; split <;> simp
@[simp] theorem State.endOfInstruction_devices (s : State) (flow : Bool) : (s.endOfInstruction flow).devices = s.devices := by
  unfold State.endOfInstruction; split <;> simp
@[simp] theorem State.endOfInstruction_ports (s : State) (flow : Bool) : (s.endOfInstruction flow).ports = s.ports := by
  unfold State.endOfInstruction; split <;> simp

/-- The end of every instruction clears x[0] and changes no other register (R22, R32). -/
@[simp] theorem State.endOfInstruction_reg (s : State) (flow : Bool) (q : RegNum) :
    (s.endOfInstruction flow).reg q = if q = 0#5 then 0#32 else s.reg q := by
  unfold State.endOfInstruction; split <;> simp

@[simp] theorem State.retireWrite_pl (s : State) (rd : RegNum) (v : Word) : (s.retireWrite rd v).pl = s.pl := by
  simp [State.retireWrite]
@[simp] theorem State.retireWrite_cr0 (s : State) (rd : RegNum) (v : Word) : (s.retireWrite rd v).cr0 = s.cr0 := by
  simp [State.retireWrite]
@[simp] theorem State.retireWrite_cr1 (s : State) (rd : RegNum) (v : Word) : (s.retireWrite rd v).cr1 = s.cr1 := by
  simp [State.retireWrite]
@[simp] theorem State.retireWrite_cause (s : State) (rd : RegNum) (v : Word) : (s.retireWrite rd v).cause = s.cause := by
  simp [State.retireWrite]
@[simp] theorem State.retireWrite_handler (s : State) (rd : RegNum) (v : Word) : (s.retireWrite rd v).handler = s.handler := by
  simp [State.retireWrite]
@[simp] theorem State.retireWrite_epc (s : State) (rd : RegNum) (v : Word) : (s.retireWrite rd v).epc = s.epc := by
  simp [State.retireWrite]
@[simp] theorem State.retireWrite_mmucr (s : State) (rd : RegNum) (v : Word) : (s.retireWrite rd v).mmucr = s.mmucr := by
  simp [State.retireWrite]
@[simp] theorem State.retireWrite_maps (s : State) (rd : RegNum) (v : Word) : (s.retireWrite rd v).maps = s.maps := by
  simp [State.retireWrite]
@[simp] theorem State.retireWrite_devices (s : State) (rd : RegNum) (v : Word) : (s.retireWrite rd v).devices = s.devices := by
  simp [State.retireWrite]
@[simp] theorem State.retireWrite_ports (s : State) (rd : RegNum) (v : Word) : (s.retireWrite rd v).ports = s.ports := by
  simp [State.retireWrite]

@[simp] theorem State.retirePlain_pl (s : State) : (s.retirePlain).pl = s.pl := by
  simp [State.retirePlain]
@[simp] theorem State.retirePlain_cr0 (s : State) : (s.retirePlain).cr0 = s.cr0 := by
  simp [State.retirePlain]
@[simp] theorem State.retirePlain_cr1 (s : State) : (s.retirePlain).cr1 = s.cr1 := by
  simp [State.retirePlain]
@[simp] theorem State.retirePlain_cause (s : State) : (s.retirePlain).cause = s.cause := by
  simp [State.retirePlain]
@[simp] theorem State.retirePlain_handler (s : State) : (s.retirePlain).handler = s.handler := by
  simp [State.retirePlain]
@[simp] theorem State.retirePlain_epc (s : State) : (s.retirePlain).epc = s.epc := by
  simp [State.retirePlain]
@[simp] theorem State.retirePlain_mmucr (s : State) : (s.retirePlain).mmucr = s.mmucr := by
  simp [State.retirePlain]
@[simp] theorem State.retirePlain_maps (s : State) : (s.retirePlain).maps = s.maps := by
  simp [State.retirePlain]
@[simp] theorem State.retirePlain_devices (s : State) : (s.retirePlain).devices = s.devices := by
  simp [State.retirePlain]
@[simp] theorem State.retirePlain_ports (s : State) : (s.retirePlain).ports = s.ports := by
  simp [State.retirePlain]

@[simp] theorem State.retirePlain_reg (s : State) (q : RegNum) :
    s.retirePlain.reg q = if q = 0#5 then 0#32 else s.reg q := by simp [State.retirePlain]

@[simp] theorem State.retirePlain_pipe (s : State) :
    s.retirePlain.pipe0 = s.pipe0 ∧ s.retirePlain.pipe1 = s.pipe1 ∧ s.retirePlain.pipe2 = s.pipe2 := by
  simp [State.retirePlain, State.endOfInstruction]

@[simp] theorem State.retireWrite_reg (s : State) (rd : RegNum) (v : Word) (q : RegNum) :
    (s.retireWrite rd v).reg q = if q = 0#5 then 0#32 else if q = rd then v else s.reg q := by
  simp [State.retireWrite]

@[simp] theorem State.dispatch_cr0 (s : State) (c : Cause) (imm24 : BitVec 24) : (s.dispatch c imm24).cr0 = s.cr0 := by
  simp [State.dispatch]
@[simp] theorem State.dispatch_cr1 (s : State) (c : Cause) (imm24 : BitVec 24) : (s.dispatch c imm24).cr1 = s.cr1 := by
  simp [State.dispatch]
@[simp] theorem State.dispatch_handler (s : State) (c : Cause) (imm24 : BitVec 24) : (s.dispatch c imm24).handler = s.handler := by
  simp [State.dispatch]
@[simp] theorem State.dispatch_maps (s : State) (c : Cause) (imm24 : BitVec 24) : (s.dispatch c imm24).maps = s.maps := by
  simp [State.dispatch]
@[simp] theorem State.dispatch_devices (s : State) (c : Cause) (imm24 : BitVec 24) : (s.dispatch c imm24).devices = s.devices := by
  simp [State.dispatch]
@[simp] theorem State.dispatch_ports (s : State) (c : Cause) (imm24 : BitVec 24) : (s.dispatch c imm24).ports = s.ports := by
  simp [State.dispatch]

@[simp] theorem State.retireRaise_cr0 (s : State) (c : Cause) (imm24 : BitVec 24) : (s.retireRaise c imm24).cr0 = s.cr0 := by
  simp [State.retireRaise]
@[simp] theorem State.retireRaise_cr1 (s : State) (c : Cause) (imm24 : BitVec 24) : (s.retireRaise c imm24).cr1 = s.cr1 := by
  simp [State.retireRaise]
@[simp] theorem State.retireRaise_handler (s : State) (c : Cause) (imm24 : BitVec 24) : (s.retireRaise c imm24).handler = s.handler := by
  simp [State.retireRaise]
@[simp] theorem State.retireRaise_maps (s : State) (c : Cause) (imm24 : BitVec 24) : (s.retireRaise c imm24).maps = s.maps := by
  simp [State.retireRaise]
@[simp] theorem State.retireRaise_devices (s : State) (c : Cause) (imm24 : BitVec 24) : (s.retireRaise c imm24).devices = s.devices := by
  simp [State.retireRaise]
@[simp] theorem State.retireRaise_ports (s : State) (c : Cause) (imm24 : BitVec 24) : (s.retireRaise c imm24).ports = s.ports := by
  simp [State.retireRaise]

/-! ### The flush -/

/-- The pipeline after a flow transfer's flush decision (R32). -/
theorem State.flushIfFoft_pipe (s : State) : PipeAfterFlow s s.flushIfFoft := by
  unfold PipeAfterFlow State.flushIfFoft
  rw [State.foft_eq]
  cases s.cr0.getLsbD 3 <;> simp [PipeFlushed, PipeKept]

theorem State.endOfInstruction_pipe (s : State) (flow : Bool) :
    (flow = true → PipeAfterFlow s (s.endOfInstruction flow)) ∧
      (flow = false → PipeKept s (s.endOfInstruction flow)) := by
  constructor
  · rintro rfl
    have := s.flushIfFoft_pipe
    simpa [PipeAfterFlow, PipeFlushed, PipeKept, State.endOfInstruction] using this
  · rintro rfl
    simp [PipeKept, State.endOfInstruction]

/-! ### One register write -/

/-- Everything an instruction that ends in one register write does to the core (R32, R104). -/
theorem State.retireWrite_writes (s : State) (rd : RegNum) (v : Word) : WritesReg s (s.retireWrite rd v) rd v := by
  refine ⟨⟨by simp, fun h => by simp [h], fun r h0 hr => by simp [h0, hr]⟩, ?_, ?_, by simp [ControlKept]⟩
  · rintro rfl
    exact ((s.setReg pcNum v).endOfInstruction_pipe true).1 rfl
  · intro h
    have := ((s.setReg rd v).endOfInstruction_pipe (decide (rd = pcNum))).2 (by simp [h])
    exact this

theorem State.retireWrite_noDeviceCall (s : State) (rd : RegNum) (v : Word) : NoDeviceCall s (s.retireWrite rd v) :=
  ⟨by simp, by simp, fun pa => peekByte_congr (by simp) pa⟩

/-! ### Taking an exception -/

theorem raisedPl_toNat (pl : PrivLevel) : (raisedPl pl).toNat = pl.toNat - 1 := by
  revert pl; decide

theorem setMmuEn_bit (w : Word) (b : Bool) (i : Nat) :
    (setMmuEn w b).getLsbD i = if i = 0 then b else w.getLsbD i := by
  have h32 : ∀ j, 32 ≤ j → w.getLsbD j = false := fun j hj => BitVec.getLsbD_of_ge w j hj
  by_cases hi : i < 32
  · unfold setMmuEn
    interval_cases i <;> cases b <;> simp
  · have : i ≠ 0 := by omega
    rw [if_neg this, h32 i (by omega)]
    exact BitVec.getLsbD_of_ge _ i (by omega)

theorem setMmuAmi_bit (w : Word) (m : BitVec 2) (i : Nat) :
    (setMmuAmi w m).getLsbD i = if i = 8 then m.getLsbD 0 else if i = 9 then m.getLsbD 1 else w.getLsbD i := by
  have h32 : ∀ j, 32 ≤ j → w.getLsbD j = false := fun j hj => BitVec.getLsbD_of_ge w j hj
  by_cases hi : i < 32
  · unfold setMmuAmi
    interval_cases i <;> simp
  · have h8 : i ≠ 8 := by omega
    have h9 : i ≠ 9 := by omega
    rw [if_neg h8, if_neg h9, h32 i (by omega)]
    exact BitVec.getLsbD_of_ge _ i (by omega)

@[simp] theorem mmuDop0_setMmuAmi (w : Word) (m : BitVec 2) : mmuDop0 (setMmuAmi w m) = mmuDop0 w :=
  setMmuAmi_bit w m 2

@[simp] theorem mmuEop1_setMmuAmi (w : Word) (m : BitVec 2) : mmuEop1 (setMmuAmi w m) = mmuEop1 w :=
  setMmuAmi_bit w m 1

@[simp] theorem mmuEop1_setMmuEn (w : Word) (b : Bool) : mmuEop1 (setMmuEn w b) = mmuEop1 w :=
  setMmuEn_bit w b 1

/-- No policy changes a policy bit, so each reads the MMUCR that exception entry found. -/
theorem entryMmucr_eq (pl : PrivLevel) (w : Word) :
    entryMmucr pl w =
      if (mmuEop1 w && decide (pl = 1#2)) = true then
        setMmuEn (if (mmuDop0 w && decide (pl = 0#2)) = true then
          setMmuEn (if mmuRpt w = true then setMmuAmi w pl else w) false
          else if mmuRpt w = true then setMmuAmi w pl else w) true
      else if (mmuDop0 w && decide (pl = 0#2)) = true then
        setMmuEn (if mmuRpt w = true then setMmuAmi w pl else w) false
      else if mmuRpt w = true then setMmuAmi w pl else w := by
  have h2 : mmuDop0 (if mmuRpt w = true then setMmuAmi w pl else w) = mmuDop0 w := by split <;> simp
  have h1 : ∀ x : Word, mmuEop1 x = mmuEop1 w →
      mmuEop1 (if (mmuDop0 w && decide (pl = 0#2)) = true then setMmuEn x false else x) = mmuEop1 w := by
    intro x hx; split <;> simp [hx]
  have h3 : mmuEop1 (if mmuRpt w = true then setMmuAmi w pl else w) = mmuEop1 w := by split <;> simp
  unfold entryMmucr
  simp only [h2, h1 _ h3]

theorem entryMmucr_bit (pl : PrivLevel) (w : Word) (i : Nat) :
    (entryMmucr pl w).getLsbD i =
      if i = 0 then (if w.getLsbD 1 = true ∧ pl = 1#2 then true
        else if w.getLsbD 2 = true ∧ pl = 0#2 then false else w.getLsbD 0)
      else if i = 8 then (if w.getLsbD 3 = true then pl.getLsbD 0 else w.getLsbD 8)
      else if i = 9 then (if w.getLsbD 3 = true then pl.getLsbD 1 else w.getLsbD 9) else w.getLsbD i := by
  have remap : ∀ i, (if mmuRpt w = true then setMmuAmi w pl else w).getLsbD i =
      if i = 8 then (if w.getLsbD 3 = true then pl.getLsbD 0 else w.getLsbD 8)
      else if i = 9 then (if w.getLsbD 3 = true then pl.getLsbD 1 else w.getLsbD 9) else w.getLsbD i := by
    intro i
    unfold mmuRpt
    cases w.getLsbD 3
    · by_cases i8 : i = 8 <;> by_cases i9 : i = 9 <;> simp [i8, i9]
    · exact setMmuAmi_bit w pl i
  rw [entryMmucr_eq]
  generalize hx : (if mmuRpt w = true then setMmuAmi w pl else w) = x at remap ⊢
  rw [apply_ite (fun x : Word => x.getLsbD i), apply_ite (fun x : Word => x.getLsbD i)]
  simp only [setMmuEn_bit, apply_ite (fun x : Word => x.getLsbD i), remap, Bool.and_eq_true, decide_eq_true_eq,
    mmuDop0, mmuEop1]
  by_cases i0 : i = 0
  · subst i0; simp
  · by_cases i8 : i = 8
    · subst i8; simp
    · by_cases i9 : i = 9
      · subst i9; simp
      · simp [i0, i8, i9]

/-- The MMUCR policies of exception entry, bit by bit (R179 steps 5 to 7). -/
theorem entryMmucr_policies (pl : PrivLevel) (w : Word) : EntryPolicies pl w (entryMmucr pl w) := by
  refine ⟨by rw [entryMmucr_bit, if_pos rfl], ?_, fun i h0 h8 h9 => by
    rw [entryMmucr_bit, if_neg h0, if_neg h8, if_neg h9]⟩
  have b8 := entryMmucr_bit pl w 8
  have b9 := entryMmucr_bit pl w 9
  apply BitVec.eq_of_getLsbD_eq
  intro i hi
  have : i = 0 ∨ i = 1 := by omega
  rcases this with rfl | rfl
  · by_cases h : w.getLsbD 3 = true <;> simp_all
  · by_cases h : w.getLsbD 3 = true <;> simp_all

/-- Everything the dispatcher does (R179). -/
theorem State.dispatch_spec (s : State) (c : Cause) (imm24 : BitVec 24) :
    Dispatched s (s.dispatch c imm24) (causeCode c) imm24 ∧
      ∀ r : RegNum, r ≠ pcNum → (s.dispatch c imm24).reg r = s.reg r := by
  refine ⟨⟨by simp [State.dispatch], by simp [State.dispatch], by simp [State.dispatch], ?_, ?_, ?_, by simp,
    by simp, by simp, by simp, by simp, by simp, fun pa => peekByte_congr (by simp) pa⟩, fun r h => by
      simp [State.dispatch, h]⟩
  · simp [State.dispatch, raisedPl_toNat]
  · simpa [State.dispatch] using entryMmucr_policies (raisedPl s.pl) s.mmucr
  · have h := State.flushIfFoft_pipe (((((s.setCause (imm24 ++ causeCode c)).setEpc s.pc).setPc s.handler).setPl
      (raisedPl s.pl)).setMmucr (entryMmucr (raisedPl s.pl) s.mmucr))
    exact h

/-- Everything an instruction that raises does (R181): the dispatcher's effect, and x[0] cleared. -/
theorem State.retireRaise_raises (s : State) (c : Cause) (imm24 : BitVec 24) :
    Raises s (s.retireRaise c imm24) (causeCode c) imm24 := by
  obtain ⟨⟨h1, h2, h3, h4, h5, h6, h7, h8, h9, h10, h11, h12, h13⟩, hr⟩ := s.dispatch_spec c imm24
  refine ⟨⟨by simpa [State.retireRaise] using h1, by simpa [State.retireRaise] using h2, ?_,
    by simpa [State.retireRaise] using h4, by simpa [State.retireRaise] using h5, ?_, by simp, by simp, by simp,
    by simp, by simp, by simp, fun pa => peekByte_congr (by simp) pa⟩, by simp [State.retireRaise], ?_⟩
  · have : pcNum ≠ 0#5 := by decide
    simpa [State.retireRaise, this] using h3
  · simpa [State.retireRaise, State.endOfInstruction, PipeAfterFlow, PipeFlushed, PipeKept] using h6
  · intro r h0 hpc
    simpa [State.retireRaise, h0] using hr r hpc

end Sys2Proof.Machine
end

