-- ==== Sys2Proof/Laws/Exec.lean ====
section
/-! SUPPORT. What an instruction can do, said once: every instruction answers a next state, and that state
is one of seven shapes. Invariants are derived from it, without unfolding a meaning again. -/

namespace Sys2Proof.Machine

/-- The shapes of the state after an instruction (R32). -/
inductive Effect (s : State) : State → Prop where
  /-- One register write (R104). -/
  | write (rd : RegNum) (v : Word) : Effect s (s.retireWrite rd v)
  /-- An exception, and nothing else (R181). -/
  | raise (c : Cause) (imm24 : BitVec 24) : Effect s (s.retireRaise c imm24)
  /-- A taken branch (R125). -/
  | taken (target : Word) (l : Bool) :
    Effect s (((if l then s.setReg linkNum s.pc else s).setPc target).endOfInstruction true)
  /-- An untaken branch (R125). -/
  | untaken : Effect s s.retirePlain
  /-- A load: one device read, then the register write (R159). -/
  | load (pa : Word) (sz : SizeCode) (rd : RegNum) :
    Effect s ((s.busRead pa sz).2.retireWrite rd (s.busRead pa sz).1)
  /-- A store: one device write (R159). -/
  | store (pa : Word) (sz : SizeCode) (v : Word) : Effect s (s.busWrite pa sz v).retirePlain
  /-- `mtcr`: one coprocessor cell (R143). -/
  | cell (c : CopCell) (v : Word) : Effect s (s.writeCell c v).retirePlain

/-- A meaning answers a next state of one of the shapes. -/
def Completes (o : Host.Outcome State Fault Refusal) (s : State) : Prop := ∃ t, o = .next t ∧ Effect s t

theorem finishAlu_completes (rd : RegNum) (r : Option Word) (s : State) : Completes (finishAlu rd r s) s := by
  cases r with
  | some v => exact ⟨_, rfl, .write rd v⟩
  | none => exact ⟨_, rfl, .raise _ _⟩

theorem aluRegForm_completes (op : AluOp) (rd rs0 rs1 : RegNum) (s : State) :
    Completes (aluRegForm op rd rs0 rs1 s) s := finishAlu_completes rd _ s

theorem aluImmForm_completes (op : AluOp) (rd : RegNum) (imm16 : BitVec 16) (sx : Bool) (s : State) :
    Completes (aluImmForm op rd imm16 sx s) s := finishAlu_completes rd _ s

theorem branchWhen_completes (c : Cond) (ra rb : RegNum) (target : Word) (l : Bool) (s : State) :
    Completes (branchWhen c ra rb target l s) s := by
  unfold branchWhen
  split
  · exact ⟨_, rfl, .taken target l⟩
  · exact ⟨_, rfl, .untaken⟩

theorem illegalForm_completes (s : State) : Completes (illegalForm s) s := ⟨_, rfl, .raise _ _⟩

theorem trapForm_completes (c : Cause) (imm24 : BitVec 24) (s : State) : Completes (trapForm c imm24 s) s :=
  ⟨_, rfl, .raise c imm24⟩

theorem loadForm_completes (sz : SizeCode) (rd : RegNum) (addr : AddrMode) (s : State) :
    Completes (loadForm sz rd addr s) s := by
  unfold loadForm
  cases s.translate (s.effectiveAddress addr) .read sz with
  | error c => exact ⟨_, rfl, .raise c _⟩
  | ok pa => exact ⟨_, rfl, .load pa sz rd⟩

theorem storeForm_completes (sz : SizeCode) (rd : RegNum) (addr : AddrMode) (s : State) :
    Completes (storeForm sz rd addr s) s := by
  unfold storeForm
  cases s.translate (s.effectiveAddress addr) .write sz with
  | error c => exact ⟨_, rfl, .raise c _⟩
  | ok pa => exact ⟨_, rfl, .store pa sz _⟩

theorem execMtcr_completes (rd : RegNum) (creg cnum : Nat) (s : State) : Completes (execMtcr rd creg cnum s) s := by
  unfold execMtcr
  cases s.resolve cnum creg with
  | none => exact ⟨_, rfl, .raise _ _⟩
  | some c => exact ⟨_, rfl, .cell c _⟩

theorem execMfcr_completes (rd : RegNum) (creg cnum : Nat) (s : State) : Completes (execMfcr rd creg cnum s) s := by
  unfold execMfcr
  cases s.resolve cnum creg with
  | none => exact ⟨_, rfl, .raise _ _⟩
  | some c => exact ⟨_, rfl, .write rd _⟩

/-- Every instruction answers a next state, of one of the seven shapes. -/
theorem exec_completes (i : Instr) (s : State) : Completes (exec i s) s := by
  cases i with
  | add rd rs0 rs1 => exact aluRegForm_completes .add rd rs0 rs1 s
  | sub rd rs0 rs1 => exact aluRegForm_completes .sub rd rs0 rs1 s
  | mul rd rs0 rs1 => exact aluRegForm_completes .mul rd rs0 rs1 s
  | mac rd rs0 rs1 => exact aluRegForm_completes .mac rd rs0 rs1 s
  | div rd rs0 rs1 => exact aluRegForm_completes .div rd rs0 rs1 s
  | mod rd rs0 rs1 => exact aluRegForm_completes .mod rd rs0 rs1 s
  | and rd rs0 rs1 => exact aluRegForm_completes .and rd rs0 rs1 s
  | or rd rs0 rs1 => exact aluRegForm_completes .or rd rs0 rs1 s
  | xor rd rs0 rs1 => exact aluRegForm_completes .xor rd rs0 rs1 s
  | lsl rd rs0 rs1 => exact aluRegForm_completes .lsl rd rs0 rs1 s
  | lsr rd rs0 rs1 => exact aluRegForm_completes .lsr rd rs0 rs1 s
  | asr rd rs0 rs1 => exact aluRegForm_completes .asr rd rs0 rs1 s
  | sextb rd rs0 rs1 => exact aluRegForm_completes .sextb rd rs0 rs1 s
  | sexth rd rs0 rs1 => exact aluRegForm_completes .sexth rd rs0 rs1 s
  | rol rd rs0 rs1 => exact aluRegForm_completes .rol rd rs0 rs1 s
  | ror rd rs0 rs1 => exact aluRegForm_completes .ror rd rs0 rs1 s
  | addImm rd imm16 sx => exact aluImmForm_completes .add rd imm16 sx s
  | subImm rd imm16 sx => exact aluImmForm_completes .sub rd imm16 sx s
  | mulImm rd imm16 sx => exact aluImmForm_completes .mul rd imm16 sx s
  | macImm rd imm16 sx => exact aluImmForm_completes .mac rd imm16 sx s
  | divImm rd imm16 sx => exact aluImmForm_completes .div rd imm16 sx s
  | modImm rd imm16 sx => exact aluImmForm_completes .mod rd imm16 sx s
  | andImm rd imm16 sx => exact aluImmForm_completes .and rd imm16 sx s
  | orImm rd imm16 sx => exact aluImmForm_completes .or rd imm16 sx s
  | xorImm rd imm16 sx => exact aluImmForm_completes .xor rd imm16 sx s
  | lslImm rd imm16 sx => exact aluImmForm_completes .lsl rd imm16 sx s
  | lsrImm rd imm16 sx => exact aluImmForm_completes .lsr rd imm16 sx s
  | asrImm rd imm16 sx => exact aluImmForm_completes .asr rd imm16 sx s
  | sextbImm rd imm16 sx => exact aluImmForm_completes .sextb rd imm16 sx s
  | sexthImm rd imm16 sx => exact aluImmForm_completes .sexth rd imm16 sx s
  | rolImm rd imm16 sx => exact aluImmForm_completes .rol rd imm16 sx s
  | rorImm rd imm16 sx => exact aluImmForm_completes .ror rd imm16 sx s
  | beq ra rb imm16 l => exact branchWhen_completes _ ra rb _ l s
  | beqU ra rb imm16 l => exact branchWhen_completes _ ra rb _ l s
  | bne ra rb imm16 l => exact branchWhen_completes _ ra rb _ l s
  | bneU ra rb imm16 l => exact branchWhen_completes _ ra rb _ l s
  | bgt ra rb imm16 l => exact branchWhen_completes _ ra rb _ l s
  | bgtU ra rb imm16 l => exact branchWhen_completes _ ra rb _ l s
  | bge ra rb imm16 l => exact branchWhen_completes _ ra rb _ l s
  | bgeU ra rb imm16 l => exact branchWhen_completes _ ra rb _ l s
  | blt ra rb imm16 l => exact branchWhen_completes _ ra rb _ l s
  | bltU ra rb imm16 l => exact branchWhen_completes _ ra rb _ l s
  | ble ra rb imm16 l => exact branchWhen_completes _ ra rb _ l s
  | bleU ra rb imm16 l => exact branchWhen_completes _ ra rb _ l s
  | jeq ra rb rt r l => exact branchWhen_completes _ ra rb _ l s
  | jne ra rb rt r l => exact branchWhen_completes _ ra rb _ l s
  | jgt ra rb rt r l => exact branchWhen_completes _ ra rb _ l s
  | jge ra rb rt r l => exact branchWhen_completes _ ra rb _ l s
  | jlt ra rb rt r l => exact branchWhen_completes _ ra rb _ l s
  | jle ra rb rt r l => exact branchWhen_completes _ ra rb _ l s
  | mtcr rd creg cnum => exact execMtcr_completes rd creg cnum s
  | mfcr rd creg cnum => exact execMfcr_completes rd creg cnum s
  | syscall imm24 => exact trapForm_completes _ imm24 s
  | debug imm24 => exact trapForm_completes _ imm24 s
  | swe imm24 => exact trapForm_completes _ imm24 s
  | tpl0 imm24 => exact illegalForm_completes s
  | tpl1 imm24 => exact illegalForm_completes s
  | tpl2 imm24 => exact illegalForm_completes s
  | tpl3 imm24 => exact illegalForm_completes s
  | cpi0 => exact illegalForm_completes s
  | cpi1 => exact illegalForm_completes s
  | ldB rd addr => exact loadForm_completes _ rd addr s
  | ldH rd addr => exact loadForm_completes _ rd addr s
  | ldW rd addr => exact loadForm_completes _ rd addr s
  | stB rd addr => exact storeForm_completes _ rd addr s
  | stH rd addr => exact storeForm_completes _ rd addr s
  | stW rd addr => exact storeForm_completes _ rd addr s
  | leaB rd addr => exact ⟨_, rfl, .write rd _⟩
  | leaH rd addr => exact ⟨_, rfl, .write rd _⟩
  | leaW rd addr => exact ⟨_, rfl, .write rd _⟩
  | li rd imm16 sx sh => exact ⟨_, rfl, .write rd _⟩
  | seq rd rs imm16 sx => exact ⟨_, rfl, .write rd _⟩
  | sne rd rs imm16 sx => exact ⟨_, rfl, .write rd _⟩
  | sgt rd rs imm16 sx => exact ⟨_, rfl, .write rd _⟩
  | sge rd rs imm16 sx => exact ⟨_, rfl, .write rd _⟩
  | slt rd rs imm16 sx => exact ⟨_, rfl, .write rd _⟩
  | sle rd rs imm16 sx => exact ⟨_, rfl, .write rd _⟩

/-- Executing a word answers a next state of one of the shapes, whatever the word (R31, R94). -/
theorem executeWord_completes (w : Word) (s : State) : Completes (executeWord w s) s := by
  unfold executeWord
  cases decode w with
  | ok i => exact exec_completes i s
  | error r => exact illegalForm_completes s

/-! ### The fields of a coprocessor write -/

@[simp] theorem State.writeCell_reg (s : State) (c : CopCell) (v : Word) (q : RegNum) :
    (s.writeCell c v).reg q = s.reg q := by cases c <;> rfl

@[simp] theorem State.writeCell_pl (s : State) (c : CopCell) (v : Word) : (s.writeCell c v).pl = s.pl := by
  cases c <;> rfl

@[simp] theorem State.writeCell_devices (s : State) (c : CopCell) (v : Word) :
    (s.writeCell c v).devices = s.devices := by cases c <;> rfl

@[simp] theorem State.writeCell_ports (s : State) (c : CopCell) (v : Word) : (s.writeCell c v).ports = s.ports := by
  cases c <;> rfl

@[simp] theorem State.writeCell_pipe0 (s : State) (c : CopCell) (v : Word) : (s.writeCell c v).pipe0 = s.pipe0 := by
  cases c <;> rfl

@[simp] theorem State.writeCell_pipe1 (s : State) (c : CopCell) (v : Word) : (s.writeCell c v).pipe1 = s.pipe1 := by
  cases c <;> rfl

@[simp] theorem State.writeCell_pipe2 (s : State) (c : CopCell) (v : Word) : (s.writeCell c v).pipe2 = s.pipe2 := by
  cases c <;> rfl

/-- A mapping-table entry after an entry write. -/
theorem State.entry_setEntry (s : State) (m : BitVec 2) (i : Fin 32) (e : MapEntry) (m' : BitVec 2) (i' : Fin 32) :
    (s.setEntry m i e).entry m' i' = if m' = m ∧ i' = i then e else s.entry m' i' := by
  unfold State.setEntry State.entry State.map
  simp only [State.setMaps_maps, Vector.get_eq_getElem, Vector.getElem_set, BitVec.val_toFin, BitVec.toNat_inj]
  by_cases hm : m = m'
  · subst hm
    by_cases hi : i = i'
    · simp [hi]
    · have hv : i.val ≠ i'.val := fun h => hi (Fin.ext h)
      simp [Ne.symm hi, Vector.getElem_set_ne _ _ hv]
  · have : m' ≠ m := fun h => hm h.symm
    simp [hm, this]

/-- A cell reads back what was written to it (R39, R45, R46). -/
theorem State.readCell_writeCell (s : State) (c : CopCell) (v : Word) : (s.writeCell c v).readCell c = v := by
  cases c with
  | mapWord m i f =>
    show ((s.setEntry m i ((s.entry m i).put f v)).entry m i).get f = v
    rw [State.entry_setEntry]
    cases f <;> simp [MapEntry.get, MapEntry.put]
  | cr0 | cr1 | cause | handler | epc | mmucr => rfl

/-- A cell write changes no other cell (R143). -/
theorem State.readCell_writeCell_other (s : State) (c d : CopCell) (v : Word) (h : d ≠ c) :
    (s.writeCell c v).readCell d = s.readCell d := by
  cases c with
  | mapWord m i f =>
    cases d with
    | mapWord m' i' f' =>
      show ((s.setEntry m i ((s.entry m i).put f v)).entry m' i').get f' = (s.entry m' i').get f'
      rw [State.entry_setEntry]
      by_cases he : m' = m ∧ i' = i
      · rw [if_pos he, he.1, he.2]
        have hf : f' ≠ f := fun hf => h (by rw [he.1, he.2, hf])
        revert hf
        cases f <;> cases f' <;> simp [MapEntry.get, MapEntry.put]
      · rw [if_neg he]
    | cr0 | cr1 | cause | handler | epc | mmucr => rfl
  | cr0 | cr1 | cause | handler | epc | mmucr => cases d <;> first | rfl | exact absurd rfl h

/-! ### A load and a store -/

theorem State.busWrite_eq_setDevices (s : State) (pa : Word) (sz : SizeCode) (v : Word) :
    s.busWrite pa sz v = s.setDevices (devicesWrite s.devices pa sz v) := rfl

/-! ### The three ways to finish, in the terms of Safety.lean -/

/-- Finishing with a register write is completing with it. -/
theorem completesWriting_retireWrite (s : State) (rd : RegNum) {v w : Word} (h : w = v) :
    CompletesWriting (.next (s.retireWrite rd w)) s rd v :=
  h ▸ ⟨_, rfl, s.retireWrite_writes rd w, s.retireWrite_noDeviceCall rd w⟩

/-- Finishing with an exception is answering its entry. -/
theorem answersRaising_retireRaise (s : State) (c : Cause) (imm24 : BitVec 24) {code : BitVec 8}
    (h : causeCode c = code) : AnswersRaising (.next (s.retireRaise c imm24)) s code imm24 :=
  h ▸ ⟨_, rfl, s.retireRaise_raises c imm24⟩

/-- Everything a branch can do (R125). -/
theorem branchWhen_branches {c : Cond} {taken : Prop} {ra rb : RegNum} {target : Word} {l : Bool} {s : State}
    (h : condHolds c (s.reg ra) (s.reg rb) = true ↔ taken) :
    CompletesBranching (branchWhen c ra rb target l s) s taken target l := by
  unfold branchWhen
  by_cases hc : condHolds c (s.reg ra) (s.reg rb) = true
  · rw [if_pos hc]
    refine ⟨_, rfl, ?_, ?_, by simp, fun _ => ⟨?_, ?_, ?_, ?_⟩, fun hn => absurd (h.1 hc) hn⟩
    · cases l <;> simp [ControlKept]
    · exact ⟨by cases l <;> simp, by cases l <;> simp, fun pa => peekByte_congr (by cases l <;> simp) pa⟩
    · rw [State.endOfInstruction_reg, if_neg (by decide)]; simp [State.setPc]
    · rintro rfl; simp; rfl
    · intro r h0 h1 h2
      cases l with
      | false => simp [h0, h1]
      | true => simp [h0, h1, h2 rfl]
    · cases l with
      | false => exact ((s.setPc target).endOfInstruction_pipe true).1 rfl
      | true => exact (((s.setReg linkNum s.pc).setPc target).endOfInstruction_pipe true).1 rfl
  · rw [if_neg hc]
    exact ⟨_, rfl, by simp [ControlKept], ⟨by simp, by simp, fun pa => peekByte_congr (by simp) pa⟩, by simp,
      fun hn => absurd (h.2 hn) hc, fun _ => ⟨fun r hr => by simp [hr], s.retirePlain_pipe⟩⟩

end Sys2Proof.Machine
end

