-- ==== Sys2Proof/Laws/Mmu.lean ====
section
/-! SUPPORT. The parts of translation (R52): the alignment checks over the integers, when an entry
matches, and the first entry of a table that matches. -/

namespace Sys2Proof.Machine

theorem low_two_zero (pa : Word) : pa.extractLsb' 0 2 = 0#2 ↔ pa.toNat % 4 = 0 := by
  rw [BitVec.toNat_eq]; simp

theorem low_one_zero (pa : Word) : pa.extractLsb' 0 1 = 0#1 ↔ pa.toNat % 2 = 0 := by
  rw [BitVec.toNat_eq]; simp

/-- Everything the alignment check can answer (R52, R56, R57). -/
theorem alignmentFault_eq (xma : Bool) (pa : Word) :
    alignmentFault xma pa .byte = none ∧
      alignmentFault xma pa .short = (if xma = true ∧ pa.toNat % 2 ≠ 0 then some .dataMisalign else none) ∧
      alignmentFault xma pa .long = (if xma = true ∧ pa.toNat % 4 ≠ 0 then some .dataMisalign else none) ∧
      alignmentFault xma pa .execute = (if pa.toNat % 4 ≠ 0 then some .fetchMisalign else none) := by
  have l1 := low_one_zero pa
  have l2 := low_two_zero pa
  cases xma <;> simp [alignmentFault, l1, l2]

theorem MapEntry.covers_iff (e : MapEntry) (va : Word) :
    e.covers va = true ↔ e.vbase.toNat ≤ va.toNat ∧ va.toNat < e.vbase.toNat + e.size.toNat := by
  unfold MapEntry.covers; simp

/-- The first element that satisfies `p` is the one found. -/
theorem find_first {α : Type} (p : α → Bool) (l : List α) (i : Nat) (hi : i < l.length) (h : p l[i] = true)
    (hj : ∀ (j : Nat) (hj : j < l.length), j < i → p l[j] = false) : l.find? p = some l[i] := by
  rw [List.find?_eq_some_iff_getElem]
  refine ⟨h, i, hi, rfl, fun j hji => ?_⟩
  simp [hj j (by omega) hji]

/-- Entry `i` of a table is element `i` of its list. -/
theorem State.map_getElem (s : State) (m : BitVec 2) (i : Nat) (h : i < 32) :
    (s.map m).toList[i]'(by simpa using h) = (s.map m).get ⟨i, h⟩ := by
  simp [Vector.get_eq_getElem]

/-- A translation depends on MMUCR and the active table alone (R48). -/
theorem State.translate_congr {s t : State} (h : t.mmucr = s.mmucr) (hm : t.activeMap = s.activeMap) (va : Word)
    (acc : AccessType) (sz : SizeCode) : t.translate va acc sz = s.translate va acc sz := by
  unfold State.translate State.mapAddress; rw [h, hm]

end Sys2Proof.Machine
end

