-- ==== Sys2Proof/Laws/PerInstr.lean ====
section
/-! SUPPORT. Families of facts stated per instruction, one lemma per constructor of `Instr`. The family
RoundTrip: a well-formed instruction decodes back from its encoding. -/

namespace Sys2Proof.Laws.RoundTrip

/-- Decoding the encoding of a well-formed instruction gives that instruction. -/
def Statement (i : Instr) : Prop := i.wellFormed = true → decode (encode i) = .ok i

theorem add (rd rs0 rs1 : RegNum) : Statement (.add rd rs0 rs1) := fun _ =>
  decode_encodeAluReg .add rd rs0 rs1

theorem addImm (rd : RegNum) (imm16 : BitVec 16) (s : Bool) : Statement (.addImm rd imm16 s) := fun _ =>
  decode_encodeAluImm .add rd imm16 s

theorem sub (rd rs0 rs1 : RegNum) : Statement (.sub rd rs0 rs1) := fun _ =>
  decode_encodeAluReg .sub rd rs0 rs1

theorem subImm (rd : RegNum) (imm16 : BitVec 16) (s : Bool) : Statement (.subImm rd imm16 s) := fun _ =>
  decode_encodeAluImm .sub rd imm16 s

theorem mul (rd rs0 rs1 : RegNum) : Statement (.mul rd rs0 rs1) := fun _ =>
  decode_encodeAluReg .mul rd rs0 rs1

theorem mulImm (rd : RegNum) (imm16 : BitVec 16) (s : Bool) : Statement (.mulImm rd imm16 s) := fun _ =>
  decode_encodeAluImm .mul rd imm16 s

theorem mac (rd rs0 rs1 : RegNum) : Statement (.mac rd rs0 rs1) := fun _ =>
  decode_encodeAluReg .mac rd rs0 rs1

theorem macImm (rd : RegNum) (imm16 : BitVec 16) (s : Bool) : Statement (.macImm rd imm16 s) := fun _ =>
  decode_encodeAluImm .mac rd imm16 s

theorem div (rd rs0 rs1 : RegNum) : Statement (.div rd rs0 rs1) := fun _ =>
  decode_encodeAluReg .div rd rs0 rs1

theorem divImm (rd : RegNum) (imm16 : BitVec 16) (s : Bool) : Statement (.divImm rd imm16 s) := fun _ =>
  decode_encodeAluImm .div rd imm16 s

theorem mod (rd rs0 rs1 : RegNum) : Statement (.mod rd rs0 rs1) := fun _ =>
  decode_encodeAluReg .mod rd rs0 rs1

theorem modImm (rd : RegNum) (imm16 : BitVec 16) (s : Bool) : Statement (.modImm rd imm16 s) := fun _ =>
  decode_encodeAluImm .mod rd imm16 s

theorem and (rd rs0 rs1 : RegNum) : Statement (.and rd rs0 rs1) := fun _ =>
  decode_encodeAluReg .and rd rs0 rs1

theorem andImm (rd : RegNum) (imm16 : BitVec 16) (s : Bool) : Statement (.andImm rd imm16 s) := fun _ =>
  decode_encodeAluImm .and rd imm16 s

theorem or (rd rs0 rs1 : RegNum) : Statement (.or rd rs0 rs1) := fun _ =>
  decode_encodeAluReg .or rd rs0 rs1

theorem orImm (rd : RegNum) (imm16 : BitVec 16) (s : Bool) : Statement (.orImm rd imm16 s) := fun _ =>
  decode_encodeAluImm .or rd imm16 s

theorem xor (rd rs0 rs1 : RegNum) : Statement (.xor rd rs0 rs1) := fun _ =>
  decode_encodeAluReg .xor rd rs0 rs1

theorem xorImm (rd : RegNum) (imm16 : BitVec 16) (s : Bool) : Statement (.xorImm rd imm16 s) := fun _ =>
  decode_encodeAluImm .xor rd imm16 s

theorem lsl (rd rs0 rs1 : RegNum) : Statement (.lsl rd rs0 rs1) := fun _ =>
  decode_encodeAluReg .lsl rd rs0 rs1

theorem lslImm (rd : RegNum) (imm16 : BitVec 16) (s : Bool) : Statement (.lslImm rd imm16 s) := fun _ =>
  decode_encodeAluImm .lsl rd imm16 s

theorem lsr (rd rs0 rs1 : RegNum) : Statement (.lsr rd rs0 rs1) := fun _ =>
  decode_encodeAluReg .lsr rd rs0 rs1

theorem lsrImm (rd : RegNum) (imm16 : BitVec 16) (s : Bool) : Statement (.lsrImm rd imm16 s) := fun _ =>
  decode_encodeAluImm .lsr rd imm16 s

theorem asr (rd rs0 rs1 : RegNum) : Statement (.asr rd rs0 rs1) := fun _ =>
  decode_encodeAluReg .asr rd rs0 rs1

theorem asrImm (rd : RegNum) (imm16 : BitVec 16) (s : Bool) : Statement (.asrImm rd imm16 s) := fun _ =>
  decode_encodeAluImm .asr rd imm16 s

theorem sextb (rd rs0 rs1 : RegNum) : Statement (.sextb rd rs0 rs1) := fun _ =>
  decode_encodeAluReg .sextb rd rs0 rs1

theorem sextbImm (rd : RegNum) (imm16 : BitVec 16) (s : Bool) : Statement (.sextbImm rd imm16 s) := fun _ =>
  decode_encodeAluImm .sextb rd imm16 s

theorem sexth (rd rs0 rs1 : RegNum) : Statement (.sexth rd rs0 rs1) := fun _ =>
  decode_encodeAluReg .sexth rd rs0 rs1

theorem sexthImm (rd : RegNum) (imm16 : BitVec 16) (s : Bool) : Statement (.sexthImm rd imm16 s) := fun _ =>
  decode_encodeAluImm .sexth rd imm16 s

theorem rol (rd rs0 rs1 : RegNum) : Statement (.rol rd rs0 rs1) := fun _ =>
  decode_encodeAluReg .rol rd rs0 rs1

theorem rolImm (rd : RegNum) (imm16 : BitVec 16) (s : Bool) : Statement (.rolImm rd imm16 s) := fun _ =>
  decode_encodeAluImm .rol rd imm16 s

theorem ror (rd rs0 rs1 : RegNum) : Statement (.ror rd rs0 rs1) := fun _ =>
  decode_encodeAluReg .ror rd rs0 rs1

theorem rorImm (rd : RegNum) (imm16 : BitVec 16) (s : Bool) : Statement (.rorImm rd imm16 s) := fun _ =>
  decode_encodeAluImm .ror rd imm16 s

theorem beq (ra rb : RegNum) (imm16 : BitVec 16) (l : Bool) : Statement (.beq ra rb imm16 l) := fun _ =>
  decode_encodeBranchImm .eq false ra rb imm16 l

theorem beqU (ra rb : RegNum) (imm16 : BitVec 16) (l : Bool) : Statement (.beqU ra rb imm16 l) := fun _ =>
  decode_encodeBranchImm .eq true ra rb imm16 l

theorem bne (ra rb : RegNum) (imm16 : BitVec 16) (l : Bool) : Statement (.bne ra rb imm16 l) := fun _ =>
  decode_encodeBranchImm .ne false ra rb imm16 l

theorem bneU (ra rb : RegNum) (imm16 : BitVec 16) (l : Bool) : Statement (.bneU ra rb imm16 l) := fun _ =>
  decode_encodeBranchImm .ne true ra rb imm16 l

theorem bgt (ra rb : RegNum) (imm16 : BitVec 16) (l : Bool) : Statement (.bgt ra rb imm16 l) := fun _ =>
  decode_encodeBranchImm .gt false ra rb imm16 l

theorem bgtU (ra rb : RegNum) (imm16 : BitVec 16) (l : Bool) : Statement (.bgtU ra rb imm16 l) := fun _ =>
  decode_encodeBranchImm .gt true ra rb imm16 l

theorem bge (ra rb : RegNum) (imm16 : BitVec 16) (l : Bool) : Statement (.bge ra rb imm16 l) := fun _ =>
  decode_encodeBranchImm .ge false ra rb imm16 l

theorem bgeU (ra rb : RegNum) (imm16 : BitVec 16) (l : Bool) : Statement (.bgeU ra rb imm16 l) := fun _ =>
  decode_encodeBranchImm .ge true ra rb imm16 l

theorem blt (ra rb : RegNum) (imm16 : BitVec 16) (l : Bool) : Statement (.blt ra rb imm16 l) := fun _ =>
  decode_encodeBranchImm .lt false ra rb imm16 l

theorem bltU (ra rb : RegNum) (imm16 : BitVec 16) (l : Bool) : Statement (.bltU ra rb imm16 l) := fun _ =>
  decode_encodeBranchImm .lt true ra rb imm16 l

theorem ble (ra rb : RegNum) (imm16 : BitVec 16) (l : Bool) : Statement (.ble ra rb imm16 l) := fun _ =>
  decode_encodeBranchImm .le false ra rb imm16 l

theorem bleU (ra rb : RegNum) (imm16 : BitVec 16) (l : Bool) : Statement (.bleU ra rb imm16 l) := fun _ =>
  decode_encodeBranchImm .le true ra rb imm16 l

theorem jeq (ra rb rt : RegNum) (r l : Bool) : Statement (.jeq ra rb rt r l) := fun _ =>
  decode_encodeBranchReg .eq ra rb rt r l

theorem jne (ra rb rt : RegNum) (r l : Bool) : Statement (.jne ra rb rt r l) := fun _ =>
  decode_encodeBranchReg .ne ra rb rt r l

theorem jgt (ra rb rt : RegNum) (r l : Bool) : Statement (.jgt ra rb rt r l) := fun _ =>
  decode_encodeBranchReg .gt ra rb rt r l

theorem jge (ra rb rt : RegNum) (r l : Bool) : Statement (.jge ra rb rt r l) := fun _ =>
  decode_encodeBranchReg .ge ra rb rt r l

theorem jlt (ra rb rt : RegNum) (r l : Bool) : Statement (.jlt ra rb rt r l) := fun _ =>
  decode_encodeBranchReg .lt ra rb rt r l

theorem jle (ra rb rt : RegNum) (r l : Bool) : Statement (.jle ra rb rt r l) := fun _ =>
  decode_encodeBranchReg .le ra rb rt r l

theorem mtcr (rd : RegNum) (creg cnum : Nat) : Statement (.mtcr rd creg cnum) := fun h =>
  (decode_encodeCop rd h).1

theorem mfcr (rd : RegNum) (creg cnum : Nat) : Statement (.mfcr rd creg cnum) := fun h =>
  (decode_encodeCop rd h).2

theorem syscall (imm24 : BitVec 24) : Statement (.syscall imm24) := fun _ => by
  obtain ⟨h1, h2, h3⟩ := decode_encodeSys 0#3 imm24
  simp [encode, h1, decodeSys, h2, h3]

theorem tpl0 (imm24 : BitVec 24) : Statement (.tpl0 imm24) := fun _ => by
  obtain ⟨h1, h2, h3⟩ := decode_encodeSys 1#3 imm24
  simp [encode, h1, decodeSys, h2, h3]

theorem tpl1 (imm24 : BitVec 24) : Statement (.tpl1 imm24) := fun _ => by
  obtain ⟨h1, h2, h3⟩ := decode_encodeSys 2#3 imm24
  simp [encode, h1, decodeSys, h2, h3]

theorem tpl2 (imm24 : BitVec 24) : Statement (.tpl2 imm24) := fun _ => by
  obtain ⟨h1, h2, h3⟩ := decode_encodeSys 3#3 imm24
  simp [encode, h1, decodeSys, h2, h3]

theorem tpl3 (imm24 : BitVec 24) : Statement (.tpl3 imm24) := fun _ => by
  obtain ⟨h1, h2, h3⟩ := decode_encodeSys 4#3 imm24
  simp [encode, h1, decodeSys, h2, h3]

theorem debug (imm24 : BitVec 24) : Statement (.debug imm24) := fun _ => by
  obtain ⟨h1, h2, h3⟩ := decode_encodeSys 5#3 imm24
  simp [encode, h1, decodeSys, h2, h3]

theorem swe (imm24 : BitVec 24) : Statement (.swe imm24) := fun _ => by
  obtain ⟨h1, h2, h3⟩ := decode_encodeSys 6#3 imm24
  simp [encode, h1, decodeSys, h2, h3]

theorem ldB (rd : RegNum) (addr : AddrMode) : Statement (.ldB rd addr) := fun h =>
  decode_encodeLoadStore 0#2 0#2 rd h

theorem ldH (rd : RegNum) (addr : AddrMode) : Statement (.ldH rd addr) := fun h =>
  decode_encodeLoadStore 0#2 1#2 rd h

theorem ldW (rd : RegNum) (addr : AddrMode) : Statement (.ldW rd addr) := fun h =>
  decode_encodeLoadStore 0#2 2#2 rd h

theorem stB (rd : RegNum) (addr : AddrMode) : Statement (.stB rd addr) := fun h =>
  decode_encodeLoadStore 1#2 0#2 rd h

theorem stH (rd : RegNum) (addr : AddrMode) : Statement (.stH rd addr) := fun h =>
  decode_encodeLoadStore 1#2 1#2 rd h

theorem stW (rd : RegNum) (addr : AddrMode) : Statement (.stW rd addr) := fun h =>
  decode_encodeLoadStore 1#2 2#2 rd h

theorem leaB (rd : RegNum) (addr : AddrMode) : Statement (.leaB rd addr) := fun h =>
  decode_encodeLoadStore 2#2 0#2 rd h

theorem leaH (rd : RegNum) (addr : AddrMode) : Statement (.leaH rd addr) := fun h =>
  decode_encodeLoadStore 2#2 1#2 rd h

theorem leaW (rd : RegNum) (addr : AddrMode) : Statement (.leaW rd addr) := fun h =>
  decode_encodeLoadStore 2#2 2#2 rd h

theorem li (rd : RegNum) (imm16 : BitVec 16) (s : Bool) (sh : Nat) : Statement (.li rd imm16 s sh) := fun h =>
  decode_encodeLoadImm rd imm16 s (by simpa [Instr.wellFormed] using h)

theorem seq (rd rs : RegNum) (imm16 : BitVec 16) (s : Bool) : Statement (.seq rd rs imm16 s) := fun _ =>
  decode_encodeSetCond .eq rd rs imm16 s

theorem sne (rd rs : RegNum) (imm16 : BitVec 16) (s : Bool) : Statement (.sne rd rs imm16 s) := fun _ =>
  decode_encodeSetCond .ne rd rs imm16 s

theorem sgt (rd rs : RegNum) (imm16 : BitVec 16) (s : Bool) : Statement (.sgt rd rs imm16 s) := fun _ =>
  decode_encodeSetCond .gt rd rs imm16 s

theorem sge (rd rs : RegNum) (imm16 : BitVec 16) (s : Bool) : Statement (.sge rd rs imm16 s) := fun _ =>
  decode_encodeSetCond .ge rd rs imm16 s

theorem slt (rd rs : RegNum) (imm16 : BitVec 16) (s : Bool) : Statement (.slt rd rs imm16 s) := fun _ =>
  decode_encodeSetCond .lt rd rs imm16 s

theorem sle (rd rs : RegNum) (imm16 : BitVec 16) (s : Bool) : Statement (.sle rd rs imm16 s) := fun _ =>
  decode_encodeSetCond .le rd rs imm16 s

theorem cpi0 : Statement .cpi0 := fun _ => rfl

theorem cpi1 : Statement .cpi1 := fun _ => rfl

end Sys2Proof.Laws.RoundTrip
end

