-- ==== Sys2Proof/Laws/Step.lean ====
section
/-! SUPPORT. The cycle (R30): what its fetch half can do, and the invariants every step keeps, packaged
once over the shapes of an instruction's effect. -/

namespace Sys2Proof.Machine

/-- Everything the fetch half of a cycle can do: the word enters slot 0 and the PC advances, or the
dispatcher runs and slot 0 takes the placeholder (R30). -/
theorem State.fetchCycle_cases (s : State) :
    (∃ pa, s.translate s.pc .exec .execute = .ok pa ∧
      s.fetchCycle = ((s.shiftPipe.busRead pa .execute).2.setPipe0 (s.shiftPipe.busRead pa .execute).1).setPc
        (s.pc + 4#32)) ∨
    (∃ c, s.translate s.pc .exec .execute = .error c ∧
      s.fetchCycle = (s.shiftPipe.dispatch c 0#24).setPipe0 0#32) := by
  have hpc : s.shiftPipe.pc = s.pc := rfl
  have ht : s.shiftPipe.translate s.shiftPipe.pc .exec .execute = s.translate s.pc .exec .execute := rfl
  unfold State.fetchCycle State.fetch
  rw [ht, hpc]
  cases h : s.translate s.pc .exec .execute with
  | ok pa => exact .inl ⟨pa, rfl, rfl⟩
  | error c => exact .inr ⟨c, rfl, rfl⟩

/-- One cycle answers a next state, of one of the shapes after its fetch half (R30, R31). -/
theorem step_completes (s : State) : Completes (step s) s.fetchCycle :=
  executeWord_completes s.fetchCycle.pipe2 s.fetchCycle

/-- The state after a step, when it is named. -/
theorem effect_of_step {s t : State} (h : step s = .next t) : Effect s.fetchCycle t := by
  obtain ⟨t', h', he⟩ := step_completes s
  rw [h] at h'
  injection h' with h'
  rwa [h']

/-- Bytes of memory after the fetch half: a fetch changes none. -/
theorem State.fetchCycle_peekByte (s : State) (q : Word) : s.fetchCycle.peekByte q = s.peekByte q := by
  rcases s.fetchCycle_cases with ⟨pa, _, h⟩ | ⟨c, _, h⟩ <;> rw [h]
  · have := peekByte_busRead s.shiftPipe pa .execute q
    rw [peekByte_congr (s := s) (t := s.shiftPipe) rfl] at this
    rw [← this]
    exact peekByte_congr rfl q
  · exact peekByte_congr (by simp) q

/-! ### The storage form (Safety.lean: `State.wf`) -/

theorem State.wf_congr {s t : State} (h : t.devices = s.devices) (hs : s.wf = true) : t.wf = true := by
  unfold State.wf at *; rw [h]; exact hs

theorem State.fetchCycle_wf {s : State} (h : s.wf = true) : s.fetchCycle.wf = true := by
  rcases s.fetchCycle_cases with ⟨pa, _, he⟩ | ⟨c, _, he⟩ <;> rw [he]
  · exact devicesRead_wf (ds := s.devices) h pa .execute
  · exact State.wf_congr (s := s) (by simp) h

theorem Effect.wf {s t : State} (h : Effect s t) (hs : s.wf = true) : t.wf = true := by
  cases h with
  | write rd v => exact State.wf_congr (by simp) hs
  | raise c imm24 => exact State.wf_congr (by simp) hs
  | taken target l => exact State.wf_congr (by cases l <;> simp) hs
  | untaken => exact State.wf_congr (by simp) hs
  | load pa sz rd =>
    exact State.wf_congr (s := (s.busRead pa sz).2) (by simp) (devicesRead_wf (ds := s.devices) hs pa sz)
  | store pa sz v =>
    exact State.wf_congr (s := s.busWrite pa sz v) (by simp) (devicesWrite_wf (ds := s.devices) hs pa sz v)
  | cell c v => exact State.wf_congr (by simp) hs

/-! ### Register 0 and the privilege level -/

theorem Effect.reg_zero {s t : State} (h : Effect s t) : t.reg 0#5 = 0#32 := by
  cases h <;> simp [State.retireRaise]

/-- Exception entry is the only way an instruction moves the privilege level, and it moves it down to the
next lower number or keeps 0 (R37, R186). -/
theorem Effect.pl {s t : State} (h : Effect s t) : t.pl.toNat = s.pl.toNat ∨ t.pl.toNat = s.pl.toNat - 1 := by
  cases h with
  | raise c imm24 => exact .inr (s.retireRaise_raises c imm24).1.2.2.2.1
  | write rd v => exact .inl (by simp)
  | taken target l => exact .inl (by cases l <;> simp)
  | untaken => exact .inl (by simp)
  | load pa sz rd => exact .inl (by simp)
  | store pa sz v => exact .inl (by simp)
  | cell c v => exact .inl (by simp)

theorem State.fetchCycle_pl (s : State) :
    s.fetchCycle.pl.toNat = s.pl.toNat ∨ s.fetchCycle.pl.toNat = s.pl.toNat - 1 := by
  rcases s.fetchCycle_cases with ⟨pa, _, he⟩ | ⟨c, _, he⟩ <;> rw [he]
  · exact .inl rfl
  · exact .inr ((s.shiftPipe.dispatch_spec c 0#24).1.2.2.2.1)

/-! ### The attachment -/

theorem State.attachment_eq (s : State) : s.attachment = s.devices.map MemDevice.shape := rfl

theorem Effect.attachment {s t : State} (h : Effect s t) : t.attachment = s.attachment ∧ t.ports = s.ports := by
  cases h with
  | taken target l => cases l <;> simp [State.attachment_eq]
  | load pa sz rd => simp [State.attachment_eq, devicesRead_shape]
  | store pa sz v => simp [State.attachment_eq, devicesWrite_shape]
  | write rd v => simp [State.attachment_eq]
  | raise c imm24 => simp [State.attachment_eq]
  | untaken => simp [State.attachment_eq]
  | cell c v => simp [State.attachment_eq]

theorem State.fetchCycle_attachment (s : State) :
    s.fetchCycle.attachment = s.attachment ∧ s.fetchCycle.ports = s.ports := by
  rcases s.fetchCycle_cases with ⟨pa, _, he⟩ | ⟨c, _, he⟩ <;> rw [he]
  · simp [State.attachment_eq, devicesRead_shape]
  · simp [State.attachment_eq]

end Sys2Proof.Machine
end

