-- ==== Sys2Proof/Tests/Slice0.lean ====
section
/-! SUPPORT. Tests. The expected values are the spec's own (the examples in its rules and the vectors of
95_test_vectors.md) or computed from a rule by hand; the words are laid out by hand from the formats of
30_encoding.md. The last part shows, for each obligation with hypotheses, a state and operands that meet
them. -/

namespace Sys2Proof.Tests

open Sys2Proof.Machine

/-! ### Helpers -/

/-- The start state of 95 §0: reset, `x[31] = 0x10C`, `HANDLER = 0x800`, and the registers listed. -/
def start : List (RegNum × Word) → State
  | [] => (State.reset.setPc 0x0000010C#32).setHandler 0x00000800#32
  | (r, v) :: rest => (start rest).setReg r v

/-- The start state with the long 0x11223344 at 0x100 in the RAM and `x[1] = 0x100`. -/
def ramState : State :=
  (start [(1#5, 0x00000100#32), (3#5, 0xAABBCCDD#32), (4#5, 0x40000000#32)]).busWrite 0x00000100#32 .long
    0x11223344#32

/-- A mapping entry. -/
def entryOf (pbase vbase size attr : Word) : MapEntry :=
  { pbase := pbase, vbase := vbase, size := size, attr := attr }

/-- The start state with AMI 2, an entry in tables 2 and `x[3] = 0xABC` (95 §2.4). -/
def mapState : State :=
  ((start [(3#5, 0x00000ABC#32)]).setMmucr 0x00000200#32).setEntry 2#2 31
    (entryOf 0x11#32 0x22#32 0x33#32 0x55#32)

/-- The start state with the MMU on and one readable entry from 0x1000 to 0x10FF onto 0x100 (95 §1.7). -/
def mmuState (mmucr attr x1 : Word) : State :=
  (((start [(1#5, x1), (3#5, 0xBBBB0308#32)]).busWrite 0x00000104#32 .long 0xAAAA0104#32).setMmucr mmucr).setEntry
    0#2 0 (entryOf 0x00000100#32 0x00001000#32 0x00000100#32 attr)

/-- The state after an answer. -/
def nextState (o : Host.Outcome State Fault Refusal) : Option State :=
  match o with
  | .next s => some s
  | .fault _ => none
  | .refused _ => none

/-- A register after executing a word. -/
def regAfter (w : Word) (s : State) (r : RegNum) : Option Word :=
  (nextState (executeWord w s)).map fun t => t.reg r

/-- CAUSE, EPC and the PC after executing a word. -/
def trapAfter (w : Word) (s : State) : Option (Word × Word × Word) :=
  (nextState (executeWord w s)).map fun t => (t.cause, t.epc, t.pc)

/-- The long at an address after executing a word. -/
def longAfter (w : Word) (s : State) (pa : Word) : Option Word :=
  (nextState (executeWord w s)).map fun t => (t.busRead pa .long).1

/-- A word decodes to an instruction, and the instruction encodes to the word. -/
def codes (i : Instr) (w : Word) : Bool := decide (decode w = .ok i) && decide (encode i = w)

/-! ### Well-formedness refuses each kind of ill-formed term -/

theorem test_wf_scaledAdd_sc : (Instr.ldW 3#5 (.scaledAdd 1#5 2#5 32)).wellFormed = false := by decide

theorem test_wf_scaledSub_sc : (Instr.stB 3#5 (.scaledSub 1#5 2#5 32)).wellFormed = false := by decide

theorem test_wf_shiftedAdd_sc : (Instr.leaH 3#5 (.shiftedAdd 1#5 2#5 32)).wellFormed = false := by decide

theorem test_wf_shiftedSub_sc : (Instr.ldB 3#5 (.shiftedSub 1#5 2#5 32)).wellFormed = false := by decide

theorem test_wf_creg : (Instr.mtcr 1#5 1024 0).wellFormed = false := by decide

theorem test_wf_cnum : (Instr.mfcr 1#5 0 32).wellFormed = false := by decide

theorem test_wf_sh : (Instr.li 1#5 1#16 false 32).wellFormed = false := by decide

theorem test_wf_accepts : (Instr.ldW 3#5 (.shiftedSub 1#5 2#5 31)).wellFormed = true := by decide

/-! ### One word and one vector per instruction -/

/-- R101 and 95 §2.1: `add r3, r1, r2`. -/
theorem test_add :
    codes (.add 3#5 1#5 2#5) 0x00C22000#32 = true ∧
      regAfter 0x00C22000#32 (start [(1#5, 0xFFFFFFFF#32), (2#5, 0x00000001#32), (3#5, 0x00000064#32)]) 3#5 = some 0x00000000#32 := by
  decide

/-- R101 and 95 §2.1: `sub r3, r1, r2`. -/
theorem test_sub :
    codes (.sub 3#5 1#5 2#5) 0x00C22004#32 = true ∧
      regAfter 0x00C22004#32 (start [(1#5, 0x00000000#32), (2#5, 0x00000001#32), (3#5, 0x00000064#32)]) 3#5 = some 0xFFFFFFFF#32 := by
  decide

/-- R101 and 95 §2.1: `mul r3, r1, r2`. -/
theorem test_mul :
    codes (.mul 3#5 1#5 2#5) 0x00C22008#32 = true ∧
      regAfter 0x00C22008#32 (start [(1#5, 0xFFFFFFFF#32), (2#5, 0xFFFFFFFF#32), (3#5, 0x00000064#32)]) 3#5 = some 0x00000001#32 := by
  decide

/-- R101 and 95 §2.1: `mac r3, r1, r2`. -/
theorem test_mac :
    codes (.mac 3#5 1#5 2#5) 0x00C2200C#32 = true ∧
      regAfter 0x00C2200C#32 (start [(1#5, 0x00000003#32), (2#5, 0x00000004#32), (3#5, 0x00000064#32)]) 3#5 = some 0x00000070#32 := by
  decide

/-- R101 and 95 §2.1: `div r3, r1, r2`. -/
theorem test_div :
    codes (.div 3#5 1#5 2#5) 0x00C22010#32 = true ∧
      regAfter 0x00C22010#32 (start [(1#5, 0xFFFFFFFF#32), (2#5, 0x00000002#32), (3#5, 0x00000064#32)]) 3#5 = some 0x7FFFFFFF#32 := by
  decide

/-- R101 and 95 §2.1: `mod r3, r1, r2`. -/
theorem test_mod :
    codes (.mod 3#5 1#5 2#5) 0x00C22014#32 = true ∧
      regAfter 0x00C22014#32 (start [(1#5, 0xFFFFFFF9#32), (2#5, 0x00000002#32), (3#5, 0x00000064#32)]) 3#5 = some 0x00000001#32 := by
  decide

/-- R101 and 95 §2.1: `and r3, r1, r2`. -/
theorem test_and :
    codes (.and 3#5 1#5 2#5) 0x00C22018#32 = true ∧
      regAfter 0x00C22018#32 (start [(1#5, 0xF0F0F0F0#32), (2#5, 0xFF00FF00#32), (3#5, 0x00000064#32)]) 3#5 = some 0xF000F000#32 := by
  decide

/-- R101 and 95 §2.1: `or r3, r1, r2`. -/
theorem test_or :
    codes (.or 3#5 1#5 2#5) 0x00C2201C#32 = true ∧
      regAfter 0x00C2201C#32 (start [(1#5, 0xF0F0F0F0#32), (2#5, 0x0F0F0F0F#32), (3#5, 0x00000064#32)]) 3#5 = some 0xFFFFFFFF#32 := by
  decide

/-- R101 and 95 §2.1: `xor r3, r1, r2`. -/
theorem test_xor :
    codes (.xor 3#5 1#5 2#5) 0x00C22020#32 = true ∧
      regAfter 0x00C22020#32 (start [(1#5, 0xFFFFFFFF#32), (2#5, 0x12345678#32), (3#5, 0x00000064#32)]) 3#5 = some 0xEDCBA987#32 := by
  decide

/-- R101 and 95 §2.1: `lsl r3, r1, r2`. -/
theorem test_lsl :
    codes (.lsl 3#5 1#5 2#5) 0x00C22024#32 = true ∧
      regAfter 0x00C22024#32 (start [(1#5, 0x00000001#32), (2#5, 0x00000021#32), (3#5, 0x00000064#32)]) 3#5 = some 0x00000002#32 := by
  decide

/-- R101 and 95 §2.1: `lsr r3, r1, r2`. -/
theorem test_lsr :
    codes (.lsr 3#5 1#5 2#5) 0x00C22028#32 = true ∧
      regAfter 0x00C22028#32 (start [(1#5, 0x80000000#32), (2#5, 0x00000020#32), (3#5, 0x00000064#32)]) 3#5 = some 0x80000000#32 := by
  decide

/-- R101 and 95 §2.1: `asr r3, r1, r2`. -/
theorem test_asr :
    codes (.asr 3#5 1#5 2#5) 0x00C2202C#32 = true ∧
      regAfter 0x00C2202C#32 (start [(1#5, 0x80000000#32), (2#5, 0x00000004#32), (3#5, 0x00000064#32)]) 3#5 = some 0xF8000000#32 := by
  decide

/-- R101 and 95 §2.1: `sextb r3, r1, r2`. -/
theorem test_sextb :
    codes (.sextb 3#5 1#5 2#5) 0x00C22030#32 = true ∧
      regAfter 0x00C22030#32 (start [(1#5, 0x00000080#32), (2#5, 0x00000000#32), (3#5, 0x00000064#32)]) 3#5 = some 0xFFFFFF80#32 := by
  decide

/-- R101 and 95 §2.1: `sexth r3, r1, r2`. -/
theorem test_sexth :
    codes (.sexth 3#5 1#5 2#5) 0x00C22034#32 = true ∧
      regAfter 0x00C22034#32 (start [(1#5, 0xFFFF7FFF#32), (2#5, 0x00000000#32), (3#5, 0x00000064#32)]) 3#5 = some 0x00007FFF#32 := by
  decide

/-- R101 and 95 §2.1: `rol r3, r1, r2`. -/
theorem test_rol :
    codes (.rol 3#5 1#5 2#5) 0x00C22038#32 = true ∧
      regAfter 0x00C22038#32 (start [(1#5, 0x80000001#32), (2#5, 0x00000001#32), (3#5, 0x00000064#32)]) 3#5 = some 0x00000003#32 := by
  decide

/-- R101 and 95 §2.1: `ror r3, r1, r2`. -/
theorem test_ror :
    codes (.ror 3#5 1#5 2#5) 0x00C2203C#32 = true ∧
      regAfter 0x00C2203C#32 (start [(1#5, 0x12345678#32), (2#5, 0x00000008#32), (3#5, 0x00000064#32)]) 3#5 = some 0x78123456#32 := by
  decide

/-- R103 and the rule of `add`: `add.s r3, #0xFFFF`. -/
theorem test_addImm :
    codes (.addImm 3#5 0xFFFF#16 true) 0x00FFFFC3#32 = true ∧
      regAfter 0x00FFFFC3#32 (start [(3#5, 0x00000005#32)]) 3#5 = some 0x00000004#32 := by
  decide

/-- R103 and the rule of `sub`: `sub.z r3, #0x1`. -/
theorem test_subImm :
    codes (.subImm 3#5 0x0001#16 false) 0x00C00046#32 = true ∧
      regAfter 0x00C00046#32 (start [(3#5, 0x00000005#32)]) 3#5 = some 0x00000004#32 := by
  decide

/-- R103 and the rule of `mul`: `mul.z r3, #0x5`. -/
theorem test_mulImm :
    codes (.mulImm 3#5 0x0005#16 false) 0x00C0014A#32 = true ∧
      regAfter 0x00C0014A#32 (start [(3#5, 0x00000007#32)]) 3#5 = some 0x00000023#32 := by
  decide

/-- R103 and the rule of `mac`: `mac.s r3, #0xFFFF`. -/
theorem test_macImm :
    codes (.macImm 3#5 0xFFFF#16 true) 0x00FFFFCF#32 = true ∧
      regAfter 0x00FFFFCF#32 (start [(3#5, 0x0000000A#32)]) 3#5 = some 0x00000000#32 := by
  decide

/-- R103 and the rule of `div`: `div.z r3, #0x2`. -/
theorem test_divImm :
    codes (.divImm 3#5 0x0002#16 false) 0x00C00092#32 = true ∧
      regAfter 0x00C00092#32 (start [(3#5, 0x00000007#32)]) 3#5 = some 0x00000003#32 := by
  decide

/-- R103 and the rule of `mod`: `mod.z r3, #0xA`. -/
theorem test_modImm :
    codes (.modImm 3#5 0x000A#16 false) 0x00C00296#32 = true ∧
      regAfter 0x00C00296#32 (start [(3#5, 0xFFFFFFFF#32)]) 3#5 = some 0x00000005#32 := by
  decide

/-- R103 and the rule of `and`: `and.s r3, #0x8000`. -/
theorem test_andImm :
    codes (.andImm 3#5 0x8000#16 true) 0x00E0001B#32 = true ∧
      regAfter 0x00E0001B#32 (start [(3#5, 0xFFFFFFFF#32)]) 3#5 = some 0xFFFF8000#32 := by
  decide

/-- R103 and the rule of `or`: `or.z r3, #0x3344`. -/
theorem test_orImm :
    codes (.orImm 3#5 0x3344#16 false) 0x00CCD11E#32 = true ∧
      regAfter 0x00CCD11E#32 (start [(3#5, 0x11220000#32)]) 3#5 = some 0x11223344#32 := by
  decide

/-- R103 and the rule of `xor`: `xor.s r3, #0xFFFF`. -/
theorem test_xorImm :
    codes (.xorImm 3#5 0xFFFF#16 true) 0x00FFFFE3#32 = true ∧
      regAfter 0x00FFFFE3#32 (start [(3#5, 0x0000FFFF#32)]) 3#5 = some 0xFFFF0000#32 := by
  decide

/-- R103 and the rule of `lsl`: `lsl.z r3, #0x21`. -/
theorem test_lslImm :
    codes (.lslImm 3#5 0x0021#16 false) 0x00C00866#32 = true ∧
      regAfter 0x00C00866#32 (start [(3#5, 0x00000001#32)]) 3#5 = some 0x00000002#32 := by
  decide

/-- R103 and the rule of `lsr`: `lsr.z r3, #0x21`. -/
theorem test_lsrImm :
    codes (.lsrImm 3#5 0x0021#16 false) 0x00C0086A#32 = true ∧
      regAfter 0x00C0086A#32 (start [(3#5, 0x80000000#32)]) 3#5 = some 0x40000000#32 := by
  decide

/-- R103 and the rule of `asr`: `asr.z r3, #0x24`. -/
theorem test_asrImm :
    codes (.asrImm 3#5 0x0024#16 false) 0x00C0092E#32 = true ∧
      regAfter 0x00C0092E#32 (start [(3#5, 0x80000000#32)]) 3#5 = some 0xF8000000#32 := by
  decide

/-- R103 and the rule of `sextb`: `sextb.z r3, #0x5`. -/
theorem test_sextbImm :
    codes (.sextbImm 3#5 0x0005#16 false) 0x00C00172#32 = true ∧
      regAfter 0x00C00172#32 (start [(3#5, 0x1234567F#32)]) 3#5 = some 0x0000007F#32 := by
  decide

/-- R103 and the rule of `sexth`: `sexth.z r3, #0x5`. -/
theorem test_sexthImm :
    codes (.sexthImm 3#5 0x0005#16 false) 0x00C00176#32 = true ∧
      regAfter 0x00C00176#32 (start [(3#5, 0x00008000#32)]) 3#5 = some 0xFFFF8000#32 := by
  decide

/-- R103 and the rule of `rol`: `rol.z r3, #0x20`. -/
theorem test_rolImm :
    codes (.rolImm 3#5 0x0020#16 false) 0x00C0083A#32 = true ∧
      regAfter 0x00C0083A#32 (start [(3#5, 0x12345678#32)]) 3#5 = some 0x12345678#32 := by
  decide

/-- R103 and the rule of `ror`: `ror.z r3, #0x24`. -/
theorem test_rorImm :
    codes (.rorImm 3#5 0x0024#16 false) 0x00C0093E#32 = true ∧
      regAfter 0x00C0093E#32 (start [(3#5, 0x12345678#32)]) 3#5 = some 0x81234567#32 := by
  decide

/-- R123, R125, R127 and 95 §2.2: `beq` at 0x100, `x[31] = 0x10C`. -/
theorem test_beq :
    codes (.beq 1#5 2#5 0x0008#16 false) 0x10440010#32 = true ∧
      regAfter 0x10440010#32 (start [(1#5, 0x00000005#32), (2#5, 0x00000005#32)]) 31#5 = some 0x00000114#32 ∧
      regAfter 0x10440010#32 (start [(1#5, 0x00000005#32), (2#5, 0x00000005#32)]) 30#5 = some 0x00000000#32 := by
  decide

/-- R123, R125, R127 and 95 §2.2: `beqU` at 0x100, `x[31] = 0x10C`. -/
theorem test_beqU :
    codes (.beqU 1#5 2#5 0xFFFE#16 true) 0x9045FFFD#32 = true ∧
      regAfter 0x9045FFFD#32 (start [(1#5, 0x00000000#32), (2#5, 0x00000000#32)]) 31#5 = some 0x0001010A#32 ∧
      regAfter 0x9045FFFD#32 (start [(1#5, 0x00000000#32), (2#5, 0x00000000#32)]) 30#5 = some 0x0000010C#32 := by
  decide

/-- R123, R125, R127 and 95 §2.2: `bne` at 0x100, `x[31] = 0x10C`. -/
theorem test_bne :
    codes (.bne 1#5 2#5 0xFFF0#16 true) 0x2045FFE1#32 = true ∧
      regAfter 0x2045FFE1#32 (start [(1#5, 0x00000001#32), (2#5, 0x00000002#32)]) 31#5 = some 0x000000FC#32 ∧
      regAfter 0x2045FFE1#32 (start [(1#5, 0x00000001#32), (2#5, 0x00000002#32)]) 30#5 = some 0x0000010C#32 := by
  decide

/-- R123, R125, R127 and 95 §2.2: `bneU` at 0x100, `x[31] = 0x10C`. -/
theorem test_bneU :
    codes (.bneU 1#5 2#5 0xFFF0#16 false) 0xA045FFE0#32 = true ∧
      regAfter 0xA045FFE0#32 (start [(1#5, 0x00000001#32), (2#5, 0x00000002#32)]) 31#5 = some 0x000100FC#32 ∧
      regAfter 0xA045FFE0#32 (start [(1#5, 0x00000001#32), (2#5, 0x00000002#32)]) 30#5 = some 0x00000000#32 := by
  decide

/-- R123, R125, R127 and 95 §2.2: `bgt` at 0x100, `x[31] = 0x10C`. -/
theorem test_bgt :
    codes (.bgt 1#5 2#5 0x0008#16 false) 0x30440010#32 = true ∧
      regAfter 0x30440010#32 (start [(1#5, 0x80000000#32), (2#5, 0x00000001#32)]) 31#5 = some 0x00000114#32 ∧
      regAfter 0x30440010#32 (start [(1#5, 0x80000000#32), (2#5, 0x00000001#32)]) 30#5 = some 0x00000000#32 := by
  decide

/-- R123, R125, R127 and 95 §2.2: `bgtU` at 0x100, `x[31] = 0x10C`. -/
theorem test_bgtU :
    codes (.bgtU 1#5 2#5 0x0008#16 true) 0xB0440011#32 = true ∧
      regAfter 0xB0440011#32 (start [(1#5, 0x00000001#32), (2#5, 0x00000001#32)]) 31#5 = some 0x0000010C#32 ∧
      regAfter 0xB0440011#32 (start [(1#5, 0x00000001#32), (2#5, 0x00000001#32)]) 30#5 = some 0x00000000#32 := by
  decide

/-- R123, R125, R127 and 95 §2.2: `bge` at 0x100, `x[31] = 0x10C`. -/
theorem test_bge :
    codes (.bge 1#5 2#5 0x0008#16 false) 0x40440010#32 = true ∧
      regAfter 0x40440010#32 (start [(1#5, 0x00000002#32), (2#5, 0x00000002#32)]) 31#5 = some 0x00000114#32 ∧
      regAfter 0x40440010#32 (start [(1#5, 0x00000002#32), (2#5, 0x00000002#32)]) 30#5 = some 0x00000000#32 := by
  decide

/-- R123, R125, R127 and 95 §2.2: `bgeU` at 0x100, `x[31] = 0x10C`. -/
theorem test_bgeU :
    codes (.bgeU 1#5 2#5 0x0008#16 true) 0xC0440011#32 = true ∧
      regAfter 0xC0440011#32 (start [(1#5, 0x00000002#32), (2#5, 0x00000003#32)]) 31#5 = some 0x0000010C#32 ∧
      regAfter 0xC0440011#32 (start [(1#5, 0x00000002#32), (2#5, 0x00000003#32)]) 30#5 = some 0x00000000#32 := by
  decide

/-- R123, R125, R127 and 95 §2.2: `blt` at 0x100, `x[31] = 0x10C`. -/
theorem test_blt :
    codes (.blt 1#5 2#5 0x0008#16 true) 0x50440011#32 = true ∧
      regAfter 0x50440011#32 (start [(1#5, 0xFFFFFFFF#32), (2#5, 0x00000001#32)]) 31#5 = some 0x0000010C#32 ∧
      regAfter 0x50440011#32 (start [(1#5, 0xFFFFFFFF#32), (2#5, 0x00000001#32)]) 30#5 = some 0x00000000#32 := by
  decide

/-- R123, R125, R127 and 95 §2.2: `bltU` at 0x100, `x[31] = 0x10C`. -/
theorem test_bltU :
    codes (.bltU 1#5 2#5 0xFFF0#16 false) 0xD045FFE0#32 = true ∧
      regAfter 0xD045FFE0#32 (start [(1#5, 0x00000000#32), (2#5, 0x00000001#32)]) 31#5 = some 0x000100FC#32 ∧
      regAfter 0xD045FFE0#32 (start [(1#5, 0x00000000#32), (2#5, 0x00000001#32)]) 30#5 = some 0x00000000#32 := by
  decide

/-- R123, R125, R127 and 95 §2.2: `ble` at 0x100, `x[31] = 0x10C`. -/
theorem test_ble :
    codes (.ble 1#5 2#5 0xFFF0#16 false) 0x6045FFE0#32 = true ∧
      regAfter 0x6045FFE0#32 (start [(1#5, 0x00000003#32), (2#5, 0x00000003#32)]) 31#5 = some 0x000000FC#32 ∧
      regAfter 0x6045FFE0#32 (start [(1#5, 0x00000003#32), (2#5, 0x00000003#32)]) 30#5 = some 0x00000000#32 := by
  decide

/-- R123, R125, R127 and 95 §2.2: `bleU` at 0x100, `x[31] = 0x10C`. -/
theorem test_bleU :
    codes (.bleU 1#5 2#5 0x0008#16 true) 0xE0440011#32 = true ∧
      regAfter 0xE0440011#32 (start [(1#5, 0x00000000#32), (2#5, 0x00000000#32)]) 31#5 = some 0x00000114#32 ∧
      regAfter 0xE0440011#32 (start [(1#5, 0x00000000#32), (2#5, 0x00000000#32)]) 30#5 = some 0x0000010C#32 := by
  decide

/-- R134 and 95 §2.3: `jeq` at 0x100, `x[31] = 0x10C`. -/
theorem test_jeq :
    codes (.jeq 1#5 2#5 3#5 true false) 0x68443006#32 = true ∧
      regAfter 0x68443006#32 (start [(1#5, 0x00000001#32), (2#5, 0x00000001#32), (3#5, 0x00000040#32)]) 31#5 = some 0x0000014C#32 ∧
      regAfter 0x68443006#32 (start [(1#5, 0x00000001#32), (2#5, 0x00000001#32), (3#5, 0x00000040#32)]) 30#5 = some 0x00000000#32 := by
  decide

/-- R134 and 95 §2.3: `jne` at 0x100, `x[31] = 0x10C`. -/
theorem test_jne :
    codes (.jne 1#5 2#5 3#5 false true) 0x68443009#32 = true ∧
      regAfter 0x68443009#32 (start [(1#5, 0x00000001#32), (2#5, 0x00000001#32), (3#5, 0x00000040#32)]) 31#5 = some 0x0000010C#32 ∧
      regAfter 0x68443009#32 (start [(1#5, 0x00000001#32), (2#5, 0x00000001#32), (3#5, 0x00000040#32)]) 30#5 = some 0x00000000#32 := by
  decide

/-- R134 and 95 §2.3: `jgt` at 0x100, `x[31] = 0x10C`. -/
theorem test_jgt :
    codes (.jgt 1#5 2#5 3#5 true true) 0x6844300F#32 = true ∧
      regAfter 0x6844300F#32 (start [(1#5, 0x00000002#32), (2#5, 0x00000001#32), (3#5, 0xFFFFFFF0#32)]) 31#5 = some 0x000000FC#32 ∧
      regAfter 0x6844300F#32 (start [(1#5, 0x00000002#32), (2#5, 0x00000001#32), (3#5, 0xFFFFFFF0#32)]) 30#5 = some 0x0000010C#32 := by
  decide

/-- R134 and 95 §2.3: `jge` at 0x100, `x[31] = 0x10C`. -/
theorem test_jge :
    codes (.jge 1#5 2#5 30#5 false true) 0x6845E011#32 = true ∧
      regAfter 0x6845E011#32 (start [(1#5, 0x00000001#32), (2#5, 0x00000001#32), (30#5, 0x00000200#32)]) 31#5 = some 0x00000200#32 ∧
      regAfter 0x6845E011#32 (start [(1#5, 0x00000001#32), (2#5, 0x00000001#32), (30#5, 0x00000200#32)]) 30#5 = some 0x0000010C#32 := by
  decide

/-- R134 and 95 §2.3: `jlt` at 0x100, `x[31] = 0x10C`. -/
theorem test_jlt :
    codes (.jlt 1#5 2#5 3#5 false false) 0x68443014#32 = true ∧
      regAfter 0x68443014#32 (start [(1#5, 0x00000000#32), (2#5, 0x00000001#32), (3#5, 0x00002000#32)]) 31#5 = some 0x00002000#32 ∧
      regAfter 0x68443014#32 (start [(1#5, 0x00000000#32), (2#5, 0x00000001#32), (3#5, 0x00002000#32)]) 30#5 = some 0x00000000#32 := by
  decide

/-- R134 and 95 §2.3: `jle` at 0x100, `x[31] = 0x10C`. -/
theorem test_jle :
    codes (.jle 1#5 2#5 3#5 true true) 0x6844301B#32 = true ∧
      regAfter 0x6844301B#32 (start [(1#5, 0x00000007#32), (2#5, 0x00000007#32), (3#5, 0xFFFFFFF4#32)]) 31#5 = some 0x00000100#32 ∧
      regAfter 0x6844301B#32 (start [(1#5, 0x00000007#32), (2#5, 0x00000007#32), (3#5, 0xFFFFFFF4#32)]) 30#5 = some 0x0000010C#32 := by
  decide

/-- R47, R145 and 95 §2.4: `mtcr cop4.1, r3` with AMI 2 writes PBASE of entry 0 of table 2, and not of table 0. -/
theorem test_mtcr :
    codes (.mtcr 3#5 1 4) 0x70C01200#32 = true ∧
      ((nextState (executeWord 0x70C01200#32 mapState)).map fun t =>
        ((t.entry 2#2 0).pbase, (t.entry 0#2 0).pbase)) = some (0x00000ABC#32, 0x00000000#32) := by
  decide

/-- R47, R146 and 95 §2.4: `mfcr r5, cop4.128` with AMI 2 reads ATTR of entry 31 of table 2. -/
theorem test_mfcr :
    codes (.mfcr 5#5 128 4) 0x71480201#32 = true ∧
      regAfter 0x71480201#32 mapState 5#5 = some 0x00000055#32 := by
  decide

/-- R148 and 95 §2.5: `syscall #0xABCDEF`. -/
theorem test_syscall :
    codes (.syscall 0xABCDEF#24) 0x78ABCDEF#32 = true ∧
      trapAfter 0x78ABCDEF#32 (start []) = some (0xABCDEF00#32, 0x0000010C#32, 0x00000800#32) := by
  decide

/-- R148 and 95 §2.5: `tpl0 #0xABCDEF`. -/
theorem test_tpl0 :
    codes (.tpl0 0xABCDEF#24) 0x79ABCDEF#32 = true ∧
      trapAfter 0x79ABCDEF#32 (start []) = some (0x00000007#32, 0x0000010C#32, 0x00000800#32) := by
  decide

/-- R148 and 95 §2.5: `tpl1 #0xABCDEF`. -/
theorem test_tpl1 :
    codes (.tpl1 0xABCDEF#24) 0x7AABCDEF#32 = true ∧
      trapAfter 0x7AABCDEF#32 (start []) = some (0x00000007#32, 0x0000010C#32, 0x00000800#32) := by
  decide

/-- R148 and 95 §2.5: `tpl2 #0xABCDEF`. -/
theorem test_tpl2 :
    codes (.tpl2 0xABCDEF#24) 0x7BABCDEF#32 = true ∧
      trapAfter 0x7BABCDEF#32 (start []) = some (0x00000007#32, 0x0000010C#32, 0x00000800#32) := by
  decide

/-- R148 and 95 §2.5: `tpl3 #0xABCDEF`. -/
theorem test_tpl3 :
    codes (.tpl3 0xABCDEF#24) 0x7CABCDEF#32 = true ∧
      trapAfter 0x7CABCDEF#32 (start []) = some (0x00000007#32, 0x0000010C#32, 0x00000800#32) := by
  decide

/-- R148 and 95 §2.5: `debug #0xABCDEF`. -/
theorem test_debug :
    codes (.debug 0xABCDEF#24) 0x7DABCDEF#32 = true ∧
      trapAfter 0x7DABCDEF#32 (start []) = some (0xABCDEF01#32, 0x0000010C#32, 0x00000800#32) := by
  decide

/-- R148 and 95 §2.5: `swe #0xABCDEF`. -/
theorem test_swe :
    codes (.swe 0xABCDEF#24) 0x7EABCDEF#32 = true ∧
      trapAfter 0x7EABCDEF#32 (start []) = some (0xABCDEF02#32, 0x0000010C#32, 0x00000800#32) := by
  decide

/-- R147: the word 0xF0000000. -/
theorem test_cpi0 :
    codes .cpi0 0xF0000000#32 = true ∧
      trapAfter 0xF0000000#32 (start []) = some (0x00000007#32, 0x0000010C#32, 0x00000800#32) := by
  decide

/-- R147: group 11111 (the ignored bits 0). -/
theorem test_cpi1 :
    codes .cpi1 0xF8000000#32 = true ∧
      trapAfter 0xF8000000#32 (start []) = some (0x00000007#32, 0x0000010C#32, 0x00000800#32) := by
  decide

/-- R162: `ld.b r3, [r1 + #0]`, the long 0x11223344 at 0x100. -/
theorem test_ldB :
    codes (.ldB 3#5 (.immAdd 1#5 0#10)) 0x80C20004#32 = true ∧
      regAfter 0x80C20004#32 ramState 3#5 = some 0x00000044#32 := by
  decide

/-- R163: `ld.h r3, [r1 + #2]`, the long 0x11223344 at 0x100. -/
theorem test_ldH :
    codes (.ldH 3#5 (.immAdd 1#5 2#10)) 0x80C20124#32 = true ∧
      regAfter 0x80C20124#32 ramState 3#5 = some 0x00001122#32 := by
  decide

/-- R164: `ld.w r3, [r1 + #1]`, unaligned, XMA clear, the long 0x11223344 at 0x100. -/
theorem test_ldW :
    codes (.ldW 3#5 (.immAdd 1#5 1#10)) 0x80C200C4#32 = true ∧
      regAfter 0x80C200C4#32 ramState 3#5 = some 0x00112233#32 := by
  decide

/-- R165: `st.b r3, [r1 + #1]`, x[3] = 0xAABBCCDD, the long 0x11223344 at 0x100. -/
theorem test_stB :
    codes (.stB 3#5 (.immAdd 1#5 1#10)) 0x80C2008C#32 = true ∧
      longAfter 0x80C2008C#32 ramState 0x00000100#32 = some 0x1122DD44#32 := by
  decide

/-- R166: `st.h r3, [r1 + #2]`, x[3] = 0xAABBCCDD, the long 0x11223344 at 0x100. -/
theorem test_stH :
    codes (.stH 3#5 (.immAdd 1#5 2#10)) 0x80C2012C#32 = true ∧
      longAfter 0x80C2012C#32 ramState 0x00000100#32 = some 0xCCDD3344#32 := by
  decide

/-- R167, R158: `st.w r3, [r1 - r4 << 2]`, x[3] = 0xAABBCCDD, the long 0x11223344 at 0x100. -/
theorem test_stW :
    codes (.stW 3#5 (.shiftedSub 1#5 4#5 2)) 0x80C2414B#32 = true ∧
      longAfter 0x80C2414B#32 ramState 0x00000100#32 = some 0xAABBCCDD#32 := by
  decide

/-- R158, R168: `leaB`. -/
theorem test_leaB :
    codes (.leaB 3#5 (.shiftedAdd 1#5 2#5 31)) 0x80C22F92#32 = true ∧
      regAfter 0x80C22F92#32 (start [(1#5, 0x00000100#32), (2#5, 0x80000001#32)]) 3#5 = some 0x80000100#32 := by
  decide

/-- R158, R168: `leaH`. -/
theorem test_leaH :
    codes (.leaH 3#5 (.scaledSub 1#5 2#5 3)) 0x80C221B1#32 = true ∧
      regAfter 0x80C221B1#32 (start [(1#5, 0x00000002#32), (2#5, 0x00000001#32)]) 3#5 = some 0xFFFFFFFF#32 := by
  decide

/-- R158, R168: `leaW`. -/
theorem test_leaW :
    codes (.leaW 3#5 (.immSub 1#5 0x3FF#10)) 0x80C3FFD5#32 = true ∧
      regAfter 0x80C3FFD5#32 (start [(1#5, 0x00000010#32)]) 3#5 = some 0xFFFFFC11#32 := by
  decide

/-- R169: `li r1, #0xABCD, 20`; bits shifted out are lost. -/
theorem test_li :
    codes (.li 1#5 0xABCD#16 false 20) 0x886AF354#32 = true ∧
      regAfter 0x886AF354#32 (start []) 1#5 = some 0xBCD00000#32 := by
  decide

/-- R171 and 95 §2.8: `seq.s r3, r1, #0xFFFF`. -/
theorem test_seq :
    codes (.seq 3#5 1#5 0xFFFF#16 true) 0x98C3FFFF#32 = true ∧
      regAfter 0x98C3FFFF#32 (start [(1#5, 0xFFFFFFFF#32), (3#5, 0x00000055#32)]) 3#5 = some 0x00000001#32 := by
  decide

/-- R171 and 95 §2.8: `sne.s r3, r1, #0xFFFF`. -/
theorem test_sne :
    codes (.sne 3#5 1#5 0xFFFF#16 true) 0xA8C3FFFF#32 = true ∧
      regAfter 0xA8C3FFFF#32 (start [(1#5, 0x00000005#32), (3#5, 0x00000055#32)]) 3#5 = some 0x00000001#32 := by
  decide

/-- R171 and 95 §2.8: `sgt r3, r1, #0x5`. -/
theorem test_sgt :
    codes (.sgt 3#5 1#5 0x0005#16 false) 0xB8C2000A#32 = true ∧
      regAfter 0xB8C2000A#32 (start [(1#5, 0x80000000#32), (3#5, 0x00000055#32)]) 3#5 = some 0x00000001#32 := by
  decide

/-- R171 and 95 §2.8: `sge.s r3, r1, #0xFFFF`. -/
theorem test_sge :
    codes (.sge 3#5 1#5 0xFFFF#16 true) 0xC8C3FFFF#32 = true ∧
      regAfter 0xC8C3FFFF#32 (start [(1#5, 0x00000005#32), (3#5, 0x00000055#32)]) 3#5 = some 0x00000000#32 := by
  decide

/-- R171 and 95 §2.8: `slt.s r3, r1, #0x8000`. -/
theorem test_slt :
    codes (.slt 3#5 1#5 0x8000#16 true) 0xD8C30001#32 = true ∧
      regAfter 0xD8C30001#32 (start [(1#5, 0x7FFFFFFF#32), (3#5, 0x00000055#32)]) 3#5 = some 0x00000001#32 := by
  decide

/-- R171 and 95 §2.8: `sle r3, r1, #0xFFFF`. -/
theorem test_sle :
    codes (.sle 3#5 1#5 0xFFFF#16 false) 0xE8C3FFFE#32 = true ∧
      regAfter 0xE8C3FFFE#32 (start [(1#5, 0x0000FFFF#32), (3#5, 0x00000055#32)]) 3#5 = some 0x00000001#32 := by
  decide

/-! ### Further vectors -/

/-- R22 and 95 §1.4: `add.z r0, #5` leaves register 0 at 0. -/
theorem test_write_to_r0 : regAfter 0x00000142#32 (start []) 0#5 = some 0x00000000#32 := by decide

/-- R110 and 95 §2.1: division by zero raises ARITHMETIC; the destination is unchanged. -/
theorem test_div_by_zero :
    trapAfter 0x00C22010#32 (start [(1#5, 7#32), (3#5, 0x64#32)]) =
        some (0x00000010#32, 0x0000010C#32, 0x00000800#32) ∧
      regAfter 0x00C22010#32 (start [(1#5, 7#32), (3#5, 0x64#32)]) 3#5 = some 0x00000064#32 := by
  decide

/-- R142 and 95 §2.4: `mtcr cop0.5, r1` raises INVALID_COP. -/
theorem test_missing_cop_register :
    trapAfter 0x70405000#32 (start []) = some (0x00000008#32, 0x0000010C#32, 0x00000800#32) := by
  decide

/-- R96 and 95 §2.3 to §2.6: reserved words raise ILLEGAL_INSTRUCTION. -/
theorem test_reserved_words :
    ([0x6844301C#32, 0x70400002#32, 0x7F000000#32, 0x80C2005C#32, 0x80C20064#32, 0x80C20047#32, 0xFFFFFFFF#32,
        0x08000000#32].all fun w =>
      decide (trapAfter w (start []) = some (0x00000007#32, 0x0000010C#32, 0x00000800#32))) = true := by
  decide

/-- 95 §1.7 and §2.6: a translated load; an address outside the entry raises NO_MAPPING; protection comes
before alignment; alignment is checked on the physical address under XMA. -/
theorem test_translated_loads :
    regAfter 0x80C20044#32 (mmuState 0x01#32 1#32 0x00001004#32) 3#5 = some 0xAAAA0104#32 ∧
      trapAfter 0x80C20044#32 (mmuState 0x01#32 1#32 0x00001100#32) =
        some (0x0000000A#32, 0x0000010C#32, 0x00000800#32) ∧
      trapAfter 0x80C20044#32 (mmuState 0x11#32 0#32 0x00001001#32) =
        some (0x0000000B#32, 0x0000010C#32, 0x00000800#32) ∧
      trapAfter 0x80C2004C#32 (mmuState 0x01#32 1#32 0x00001000#32) =
        some (0x0000000C#32, 0x0000010C#32, 0x00000800#32) ∧
      trapAfter 0x80C20044#32 (mmuState 0x11#32 1#32 0x00001001#32) =
        some (0x0000000F#32, 0x0000010C#32, 0x00000800#32) := by
  decide

/-- 95 §2.6: past the RAM's end a read gives 0xFF bytes and a write is dropped; open bus is unmasked. -/
theorem test_edges_of_ram :
    regAfter 0x80C20044#32 ((start [(1#5, 0x00000FFE#32)]).busWrite 0x00000FFC#32 .long 0x44332211#32) 3#5 =
        some 0xFFFF4433#32 ∧
      longAfter 0x80C2004C#32
          ((start [(1#5, 0x00000FFE#32), (3#5, 0xAABBCCDD#32)]).busWrite 0x00000FFC#32 .long 0x44332211#32)
          0x00000FFC#32 = some 0xCCDD2211#32 ∧
      regAfter 0x80C20004#32 (start [(1#5, 0x00002000#32)]) 3#5 = some 0xFFFFFFFF#32 := by
  decide

/-- 95 §2.9: the MMUCR policies of exception entry, by (PL, MMUCR) before and after `swe #1`. -/
theorem test_entry_policies :
    ([(2#2, 0x209#32, 1#2, 0x109#32), (2#2, 0x208#32, 1#2, 0x108#32), (1#2, 0x005#32, 0#2, 0x004#32),
        (2#2, 0x002#32, 1#2, 0x003#32), (0#2, 0x109#32, 0#2, 0x009#32), (3#2, 0x300#32, 2#2, 0x300#32),
        (1#2, 0x00C#32, 0#2, 0x00C#32)].all fun (p, m, p', m') =>
      decide ((nextState (executeWord 0x7E000001#32 (((start []).setPl p).setMmucr m))).map
        (fun t => (t.pl, t.mmucr)) = some (p', m'))) = true := by
  decide

/-- The state of 95 §2.9, two exceptions in one cycle. -/
def twoFaults (cr0 : Word) : State :=
  (((start []).setPc 0x00001002#32).setPipe 0#32 0x78000005#32 0#32).setCr0 cr0

/-- R183, R206 and 95 §2.9: the `syscall` in slot 2 overwrites the fetch fault with FOFT 0, and is flushed
with FOFT 1. -/
theorem test_two_exceptions_in_a_cycle :
    (nextState (step (twoFaults 0#32))).map (fun t => (t.cause, t.epc, t.pc, t.pipe0)) =
        some (0x00000500#32, 0x00000800#32, 0x00000800#32, 0#32) ∧
      (nextState (step (twoFaults 8#32))).map (fun t => (t.cause, t.epc, t.pc, t.pipe2)) =
        some (0x0000000E#32, 0x00001002#32, 0x00000800#32, 0#32) := by
  decide

/-- R199 and 95 §1.3: a taken branch flushes under FOFT, and not without it. -/
theorem test_flush_of_a_taken_branch :
    (nextState (executeWord 0x10000040#32 (((start []).setPipe 1#32 2#32 3#32).setCr0 8#32))).map
        (fun t => (t.pipe0, t.pipe1, t.pipe2)) = some (0#32, 0#32, 0#32) ∧
      (nextState (executeWord 0x10000040#32 ((start []).setPipe 1#32 2#32 3#32))).map
        (fun t => (t.pipe0, t.pipe1, t.pipe2)) = some (1#32, 2#32, 3#32) := by
  decide

/-- R30: the cycle after reset fetches at 0, executes the reset bubble and advances the PC. -/
theorem test_first_cycle :
    (nextState (step (State.reset.hostLoad 0#32 [0x80#8, 0x00#8, 0x40#8, 0x88#8]))).map
        (fun t => (t.pipe0, t.pc)) = some (0x88400080#32, 0x00000004#32) := by
  decide

/-- R66: a port that no device has reads open bus. -/
theorem test_unowned_port : (State.reset.portRead 0x0060#16 .byte).1 = 0xFFFFFFFF#32 := by decide

/-- The table's words reach the decoder and the step (`decodeTableWord`, `withFetchWord`). -/
theorem test_table_word :
    decodeTableWord 32 0x88400080 = some (.li 1#5 2#16 false 0) ∧
      (nextState (step (State.reset.withFetchWord 32 0x88400080))).map (fun t => t.reg 1#5) =
        some 0x00000002#32 := by
  decide

/-- The storage of the machine after reset is canonical. -/
theorem test_reset_memory_wf : Memory.wf [] = true ∧ State.reset.wf = true := by decide

/-! ### Witnesses: the hypotheses of the obligations can be met -/

theorem witness_StepKeepsStorageCanonical : ramState.wf = true ∧ (nextState (step ramState)).isSome = true := by
  decide

theorem witness_CycleShiftsFetchesExecutes :
    ((start []).setPc 0xFFFFFFFC#32).translate 0xFFFFFFFC#32 .exec .execute = .ok 0xFFFFFFFC#32 ∧
      (twoFaults 0#32).translate ((twoFaults 0#32).reg pcNum) .exec .execute = .error .fetchMisalign ∧
      (twoFaults 0#32).cr0.getLsbD 3 = false ∧ (twoFaults 8#32).cr0.getLsbD 3 = true := by
  decide

/-- The state with a `syscall` in slot 1. -/
def syscallNext : State := (start []).setPipe 0#32 0x78000005#32 0#32

theorem witness_StepRunsDecodedInstruction :
    syscallNext.translate (syscallNext.reg pcNum) .exec .execute = .ok 0x0000010C#32 ∧
      decode syscallNext.pipe1 = .ok (.syscall 5#24) := by
  decide

theorem witness_RegisterZeroReadsZero :
    (nextState (executeWord 0x00022000#32 (start [(0#5, 9#32)]))).isSome = true ∧
      (nextState (step syscallNext)).isSome = true := by
  decide

theorem witness_ZeroWordIsABubble : (start []).reg 0#5 = 0#32 := by decide

theorem witness_PrivilegeLevelNeverIncreases :
    (nextState (executeWord 0x78000005#32 ((start []).setPl 3#2))).isSome = true ∧
      (nextState (step ((twoFaults 0#32).setPl 3#2))).isSome = true := by
  decide

theorem witness_PrivilegeLevelInfluencesNothing :
    (syscallNext.setMmucr 0x300#32).mmucr.getLsbD 1 = false ∧
      (syscallNext.setMmucr 0x300#32).mmucr.getLsbD 2 = false ∧
      (syscallNext.setMmucr 0x300#32).mmucr.getLsbD 3 = false ∧
      (nextState (step (syscallNext.setMmucr 0x300#32))).isSome = true := by
  decide

theorem witness_OnlyMtcrWritesControlCells :
    (∀ (rd : RegNum) (creg cnum : Nat), Instr.swe 1#24 ≠ .mtcr rd creg cnum) ∧
      (nextState (exec (.swe 1#24) ramState)).isSome = true :=
  ⟨fun _ _ _ h => Instr.noConfusion h, by decide⟩

theorem witness_DevicesStayAttachedAndPortsUntouched :
    (nextState (executeWord 0x80C2004C#32 ramState)).isSome = true ∧ (nextState (step ramState)).isSome = true := by
  decide

theorem witness_DecodeOfEncodeIsIdentity :
    (Instr.ldW 3#5 (.scaledAdd 1#5 2#5 31)).wellFormed = true ∧ (Instr.mtcr 3#5 1023 31).wellFormed = true ∧
      (Instr.li 3#5 1#16 true 31).wellFormed = true := by
  decide

theorem witness_EncodeOfDecodeIsTheWord : decode 0x00C22FC1#32 = .ok (.add 3#5 1#5 2#5) := by decide

theorem witness_IgnoredBitsAreNotChecked :
    ((0x00C22000#32 : Word) >>> 27 = 0#32 ∧ (0x00C22000#32 : Word).getLsbD 1 = false ∧
        (0x00C22000#32 : Word) &&& ~~~0x00000FC1#32 = 0x00C22FC1#32 &&& ~~~0x00000FC1#32) ∧
      ((0x68443004#32 : Word) >>> 27 = 13#32 ∧
        (0x68443004#32 : Word) &&& ~~~0x00000FE0#32 = 0x68443FE4#32 &&& ~~~0x00000FE0#32) ∧
      (0x70400000#32 : Word) >>> 27 = 14#32 ∧
        (0x70400000#32 : Word) &&& ~~~0x00000060#32 = 0x70400060#32 &&& ~~~0x00000060#32 := by
  decide

theorem witness_IgnoredBitsAreNotChecked_otherFormats :
    (0x00FFFFC3#32 : Word).getLsbD 1 = true ∧ (0x88448D10#32 : Word) >>> 27 = 17#32 ∧
      decode 0x88448D10#32 = .ok (.li 1#5 0x1234#16 false 16) := by
  decide

theorem witness_ReservedGroupsRaiseIllegal :
    (0x0FFFFFFF#32 : Word) >>> 27 = 0b00001#32 ∧ (0x18000000#32 : Word) >>> 27 = 0b00011#32 ∧
      (0x28000000#32 : Word) >>> 27 = 0b00101#32 ∧ (0x38000000#32 : Word) >>> 27 = 0b00111#32 ∧
      (0x48000000#32 : Word) >>> 27 = 0b01001#32 ∧ (0x58000000#32 : Word) >>> 27 = 0b01011#32 := by
  decide

theorem witness_ReservedFieldsRaiseIllegal :
    (0xF0000000#32 : Word) >>> 27 = 0b11110#32 ∧ (0xFFFFFFFF#32 : Word) >>> 27 = 0b11111#32 ∧
      ((0x68443000#32 : Word) >>> 27 = 0b01101#32 ∧ (0x68443000#32 : Word).extractLsb' 2 3 = 0#3) ∧
      (0x6844301C#32 : Word).extractLsb' 2 3 = 7#3 ∧
      ((0x70400002#32 : Word) >>> 27 = 0b01110#32 ∧ 2 ≤ ((0x70400002#32 : Word).extractLsb' 0 5).toNat) ∧
      ((0x79000000#32 : Word) >>> 27 = 0b01111#32 ∧ ((0x79000000#32 : Word).extractLsb' 24 3).toNat = 1) ∧
      ((0x7C000000#32 : Word).extractLsb' 24 3).toNat = 4 ∧ (0x7F000000#32 : Word).extractLsb' 24 3 = 7#3 ∧
      ((0x80C2005C#32 : Word) >>> 27 = 0b10000#32 ∧ (0x80C2005C#32 : Word).extractLsb' 3 2 = 3#2) ∧
      (0x80C20064#32 : Word).extractLsb' 5 2 = 3#2 ∧ ((0x80C20046#32 : Word).extractLsb' 0 3).toNat = 6 := by
  decide

theorem witness_DivModWriteResult : (start [(2#5, 1#32)]).reg 2#5 ≠ 0#32 ∧ (0xFFFF#16 : BitVec 16) ≠ 0#16 := by
  decide

theorem witness_DivModByZeroRaiseArithmetic : (start [(1#5, 7#32)]).reg 2#5 = 0#32 := by decide

theorem witness_RotatesUndoEachOther :
    (31#5 : RegNum) ≠ 0#5 ∧ (31#5 : RegNum) ≠ 2#5 ∧ (start [(2#5, 33#32)]).reg 0#5 = 0#32 := by
  decide

/-- Each kind of flow transfer: a taken branch, a write of r31, an exception, a word in reserved space. -/
theorem witness_FlowTransfer :
    FlowTransfer (start []) (.beq 1#5 1#5 8#16 false) ∧ FlowTransfer (start []) (.li 31#5 0x200#16 false 0) ∧
      FlowTransfer (start []) (.div 3#5 1#5 0#5) ∧ FlowTransfer (start []) (.syscall 5#24) ∧
      TransfersFlow (start []) (executeWord 0x0FFFFFFF#32 (start [])) :=
  ⟨rfl, rfl, .inr (by decide), trivial, .inr ⟨_, _, rfl, rfl⟩⟩

theorem witness_DelaySlotsFollowFoft :
    TransfersFlow (start []) (exec (.beq 1#5 1#5 8#16 false) (start [])) ∧
      (nextState (exec (.beq 1#5 1#5 8#16 false) ((start []).setCr0 8#32))).map
        (fun t => decide (t.translate (t.reg pcNum) .exec .execute = .ok 0x00000114#32)) = some true ∧
      (nextState (exec (.beq 1#5 1#5 8#16 false) (start []))).map
        (fun t => decide (t.translate (t.reg pcNum) .exec .execute = .ok 0x00000114#32)) = some true ∧
      ¬FlowTransfer (start [(1#5, 1#32)]) (.beq 1#5 0#5 8#16 false) :=
  ⟨.inl ⟨.beq 1#5 1#5 8#16 false, rfl, rfl⟩, by decide, by decide, by simp only [FlowTransfer]; decide⟩

theorem witness_MtcrStoresTheCell :
    mapState.resolve 0 4 = some .epc ∧ mapState.resolve 4 1 = some (.mapWord 2#2 0 .pbase) ∧
      mapState.resolve 4 128 = some (.mapWord 2#2 31 .attr) := by
  decide

theorem witness_MfcrReadsTheCell :
    mapState.resolve 0 0 = some .cr0 ∧ mapState.resolve 4 5 = some (.mapWord 2#2 1 .pbase) := by
  decide

theorem witness_MissingCopRegisterRaises :
    mapState.resolve 0 5 = none ∧ mapState.resolve 4 129 = none ∧ mapState.resolve 1 0 = none := by
  decide

theorem witness_ResolverTable : (5 ≤ 5 ∧ 129 ≤ 129) ∧ (5 ≠ 0 ∧ 5 ≠ 4) := by decide

theorem witness_FoftWriteGovernsTheNextBranch :
    ((start [(1#5, 8#32)]).reg 1#5).getLsbD 3 = true ∧ ((start [(1#5, 7#32)]).reg 1#5).getLsbD 3 = false ∧
      ∀ t : State, TransfersFlow t (exec (.beq 1#5 1#5 8#16 true) t) :=
  ⟨by decide, by decide, fun _ => .inl ⟨.beq 1#5 1#5 8#16 true, rfl, rfl⟩⟩

theorem witness_EntryMatchIsUnbounded :
    (entryOf 0#32 0x1000#32 0#32 7#32).size = 0#32 ∧
      (0x00000FFF#32 : Word).toNat < (entryOf 0#32 0x1000#32 1#32 7#32).vbase.toNat ∧
      2 ^ 32 ≤ (entryOf 0#32 0xFFFFFF00#32 0x100#32 1#32).vbase.toNat +
        (entryOf 0#32 0xFFFFFF00#32 0x100#32 1#32).size.toNat ∧
      (entryOf 0#32 0xFFFFFF00#32 0x100#32 1#32).covers 0xFFFFFFFF#32 = true := by
  decide

theorem witness_MmuOffPassesThrough :
    (start []).mmucr.getLsbD 0 = false ∧ ((start []).setMmucr 0x10#32).mmucr.getLsbD 0 = false ∧
      ((start []).setMmucr 0x10#32).mmucr.getLsbD 4 = true := by
  decide

theorem witness_MmuOnTranslatesByFirstMatch :
    (mmuState 0x01#32 1#32 0#32).mmucr.getLsbD 0 = true ∧
      (∀ j : Fin 32, ((mmuState 0x01#32 1#32 0#32).entry 0#2 j).covers 0x00001100#32 = false) ∧
      ((mmuState 0x01#32 1#32 0#32).entry 0#2 0).covers 0x000010FF#32 = true ∧
      (∀ j : Fin 32, j < 0 → ((mmuState 0x01#32 1#32 0#32).entry 0#2 j).covers 0x000010FF#32 = false) := by
  decide

theorem witness_OnlyTheActiveTableIsConsulted :
    ((start []).setEntry 3#2 0 (entryOf 1#32 1#32 1#32 1#32)).mmucr = (start []).mmucr ∧
      ∀ i : Fin 32, ((start []).setEntry 3#2 0 (entryOf 1#32 1#32 1#32 1#32)).entry
        ((start []).mmucr.extractLsb' 8 2) i = (start []).entry ((start []).mmucr.extractLsb' 8 2) i := by
  decide

theorem witness_OpenBusReadsAllOnes :
    ∀ d ∈ (start []).devices, ¬(d.start ≤ (0x00001000#32 : Word).toNat ∧ (0x00001000#32 : Word).toNat < d.stop) := by
  decide

/-- Two overlapping devices behind the RAM of reset. -/
def threeDevices : State :=
  (State.reset.attachDevice { start := 0x2000, stop := 0x3000, body := .external 1 [] }).attachDevice
    { start := 0x2800, stop := 0x4000, body := .ram [] }

theorem witness_ReadsGoToTheFirstOwner_noOwner :
    ∀ d ∈ threeDevices.devices, ¬(d.start ≤ (0x00001000#32 : Word).toNat ∧ (0x00001000#32 : Word).toNat < d.stop) := by
  decide

theorem witness_ReadsGoToTheFirstOwner :
    threeDevices.devices = [MemDevice.referenceRam] ++ { start := 0x2000, stop := 0x3000, body := .external 1 [] } ::
        [{ start := 0x2800, stop := 0x4000, body := .ram [] }] ∧
      (∀ b ∈ [MemDevice.referenceRam],
        ¬(b.start ≤ (0x00002FFF#32 : Word).toNat ∧ (0x00002FFF#32 : Word).toNat < b.stop)) ∧
      0x2000 ≤ (0x00002FFF#32 : Word).toNat ∧ (0x00002FFF#32 : Word).toNat < 0x3000 := by
  decide

theorem witness_WritesGoToTheFirstOwner :
    (∀ d ∈ threeDevices.devices,
        ¬(d.start ≤ (0x00004000#32 : Word).toNat ∧ (0x00004000#32 : Word).toNat < d.stop)) ∧
      threeDevices.devices = [] ++ MemDevice.referenceRam ::
        [{ start := 0x2000, stop := 0x3000, body := .external 1 [] },
          { start := 0x2800, stop := 0x4000, body := .ram [] }] ∧
      MemDevice.referenceRam.start ≤ (0x00000FFF#32 : Word).toNat ∧
      (0x00000FFF#32 : Word).toNat < MemDevice.referenceRam.stop := by
  decide

theorem witness_RamReadsAreLittleEndian :
    ownerOf threeDevices.devices 0x00003000#32 = some { start := 0x2800, stop := 0x4000, body := .ram [] } ∧
      ownerOf threeDevices.devices 0x00000FFF#32 = some MemDevice.referenceRam := by
  decide

/-- Two port devices that share port 0x60. -/
def portState : State :=
  (State.reset.attachPort { ports := [0x0064#16, 0x0060#16], id := 1, calls := [] }).attachPort
    { ports := [0x0060#16, 0x01F0#16], id := 2, calls := [] }

/-- R16, R66: the answer of the device that has the port is masked to a byte. -/
theorem test_owned_port_byte_masked (v : Word) :
    (portState.portRead 0x01F0#16 .byte).1 = Config.portDeviceRead 2 [] 0x01F0#16 .byte &&& 0x000000FF#32 ∧
      (portState.portWrite 0x01F0#16 .byte v).ports[1]? =
        some { ports := [0x0060#16, 0x01F0#16], id := 2, calls := [.write 0x01F0#16 v .byte] } :=
  ⟨rfl, rfl⟩

theorem witness_PortsDispatchByMembership :
    (∀ d ∈ portState.ports, (0x0061#16 : BitVec 16) ∉ d.ports) ∧
      portState.ports = [{ ports := [0x0064#16, 0x0060#16], id := 1, calls := [] }] ++
        { ports := [0x0060#16, 0x01F0#16], id := 2, calls := [] } :: [] ∧
      (∀ b ∈ [({ ports := [0x0064#16, 0x0060#16], id := 1, calls := [] } : PortDevice)],
        (0x01F0#16 : BitVec 16) ∉ b.ports) ∧
      (0x01F0#16 : BitVec 16) ∈ [0x0060#16, 0x01F0#16] := by
  decide

/-- The address `[r1 + #0]`. -/
def atR1 : AddrMode := .immAdd 1#5 0#10

theorem witness_LoadsWriteTheBusValue :
    (mmuState 0x11#32 1#32 0x000010FF#32).translate 0x000010FF#32 .read .byte = .ok 0x000001FF#32 ∧
      (mmuState 0x11#32 1#32 0x000010FE#32).effectiveAddress atR1 = 0x000010FE#32 ∧
      (mmuState 0x11#32 1#32 0x000010FE#32).translate 0x000010FE#32 .read .short = .ok 0x000001FE#32 ∧
      (mmuState 0x11#32 1#32 0x000010FC#32).translate 0x000010FC#32 .read .long = .ok 0x000001FC#32 := by
  decide

theorem witness_StoresWriteTheirBytes :
    (mmuState 0x11#32 2#32 0x000010FF#32).wf = true ∧
      (mmuState 0x11#32 2#32 0x000010FF#32).effectiveAddress atR1 = 0x000010FF#32 ∧
      (mmuState 0x11#32 2#32 0x000010FF#32).translate 0x000010FF#32 .write .byte = .ok 0x000001FF#32 ∧
      (mmuState 0x11#32 2#32 0x000010FE#32).translate 0x000010FE#32 .write .short = .ok 0x000001FE#32 ∧
      (mmuState 0x11#32 2#32 0x000010FC#32).translate 0x000010FC#32 .write .long = .ok 0x000001FC#32 := by
  decide

theorem witness_LoadAndStoreFaultsRaise :
    (mmuState 0x11#32 0#32 0#32).translate 0x00001000#32 .read .byte = .error .protRead ∧
      (mmuState 0x11#32 1#32 0#32).translate 0x00001001#32 .read .short = .error .dataMisalign ∧
      (mmuState 0x11#32 1#32 0#32).translate 0x00001100#32 .read .long = .error .noMapping ∧
      (mmuState 0x11#32 1#32 0#32).translate 0x00001000#32 .write .byte = .error .protWrite ∧
      (mmuState 0x11#32 2#32 0#32).translate 0x00001001#32 .write .short = .error .dataMisalign ∧
      (mmuState 0x11#32 2#32 0#32).translate 0x00001002#32 .write .long = .error .dataMisalign := by
  decide

theorem witness_LoadAfterStoreGivesTheValue :
    (start [(1#5, 0x00000FFC#32)]).wf = true ∧ (start [(1#5, 0x00000FFC#32)]).reg 0#5 = 0#32 ∧
      (2#5 : RegNum) ≠ 0#5 ∧
      (start [(1#5, 0x00000FFC#32)]).translate ((start [(1#5, 0x00000FFC#32)]).effectiveAddress atR1) .write .long =
        .ok 0x00000FFC#32 ∧
      (start [(1#5, 0x00000FFC#32)]).translate ((start [(1#5, 0x00000FFC#32)]).effectiveAddress atR1) .read .long =
        .ok 0x00000FFC#32 ∧
      ownerOf (start [(1#5, 0x00000FFC#32)]).devices 0x00000FFC#32 = some MemDevice.referenceRam ∧
      MemDevice.referenceRam.body = .ram [] ∧ (0x00000FFC#32 : Word).toNat + 3 < MemDevice.referenceRam.stop := by
  decide

theorem witness_TwoInstructionsBuildAnyConstant : (31#5 : RegNum) ≠ 0#5 ∧ (1#5 : RegNum) ≠ 0#5 := by decide

end Sys2Proof.Tests
end

section
/-! The state after reset (R50), and one cycle as a shift, a fetch and the execution of slot 2 (R30). -/

namespace Sys2Proof.Machine

/-! ### Reset -/

theorem State.reset_reg (r : RegNum) : State.reset.reg r = 0#32 := by
  simp [State.reg, State.reset, Vector.get_eq_getElem]

theorem State.reset_entry (m : BitVec 2) (i : Fin 32) : State.reset.entry m i = MapEntry.zero := by
  simp [State.entry, State.map, State.reset, Vector.get_eq_getElem]

theorem MapEntry.get_zero (f : MapField) : MapEntry.zero.get f = 0#32 := by
  cases f <;> rfl

/-- Settles O1: the vectors of registers and of mapping tables hold one repeated value; every other piece
of core state is a field of `State.reset`. -/
theorem resetHoldsSpecValues : Obligations.ResetHoldsSpecValues := by
  have mapWords (m : BitVec 2) (i : Fin 32) (f : MapField) : (State.reset.entry m i).get f = 0#32 := by
    rw [State.reset_entry, MapEntry.get_zero]
  exact ⟨State.reset_reg, rfl, rfl, rfl, rfl, rfl, rfl, rfl, rfl, rfl, rfl, mapWords⟩

/-! ### The fetch half of a cycle, by the answer of the translation -/

/-- The fetch of a cycle that succeeds (R30). -/
theorem State.fetchCycle_of_ok {s : State} {pa : Word}
    (h : s.translate (s.reg pcNum) .exec .execute = .ok pa) :
    s.fetchCycle = ((s.shiftPipe.busRead pa .execute).2.setPipe0 (s.busRead pa .execute).1).setPc
      (s.reg pcNum + 4#32) := by
  rcases s.fetchCycle_cases with ⟨pa', hok, hcycle⟩ | ⟨c, herror, -⟩
  · obtain rfl : pa = pa' := Except.ok.inj (h.symm.trans hok)
    exact hcycle
  · exact absurd (h.symm.trans herror) nofun

/-- The fetch of a cycle that faults (R30, R59). -/
theorem State.fetchCycle_of_error {s : State} {c : Cause}
    (h : s.translate (s.reg pcNum) .exec .execute = .error c) :
    s.fetchCycle = (s.shiftPipe.dispatch c 0#24).setPipe0 0#32 := by
  rcases s.fetchCycle_cases with ⟨pa, hok, -⟩ | ⟨c', herror, hcycle⟩
  · exact absurd (h.symm.trans hok) nofun
  · obtain rfl : c = c' := Except.error.inj (h.symm.trans herror)
    exact hcycle

/-- The fetch half of a cycle writes no general register but `x[31]`. -/
theorem State.fetchCycle_reg (s : State) {r : RegNum} (hr : r ≠ pcNum) : s.fetchCycle.reg r = s.reg r := by
  rcases s.fetchCycle_cases with ⟨pa, _, hcycle⟩ | ⟨c, _, hcycle⟩ <;> rw [hcycle]
  · simp [hr]
  · exact (s.shiftPipe.dispatch_spec c 0#24).2 r hr

/-- Settles O5: the state in question is the one after the fetch half of the cycle. Where the translation
succeeds its fields are read off; where it raises they are the dispatcher's on the shifted pipeline, with
the placeholder in slot 0. -/
theorem cycleShiftsFetchesExecutes : Obligations.CycleShiftsFetchesExecutes := by
  intro s
  refine ⟨s.fetchCycle, rfl, fun r => s.fetchCycle_reg, s.fetchCycle_attachment.2, s.fetchCycle_peekByte,
    fun pa hok => ?fetched, fun c herror => ?faulted⟩
  case fetched =>
    rw [State.fetchCycle_of_ok hok]
    exact ⟨rfl, rfl, rfl, by simp [BitVec.toNat_add], by simp [ControlKept], rfl⟩
  case faulted =>
    rw [State.fetchCycle_of_error herror]
    obtain ⟨⟨hcause, hepc, hpc, hpl, hmmucr, ⟨hflushed, hkept⟩, hcr0, hcr1, hhandler, hmaps, hdevices, -⟩, -⟩ :=
      s.shiftPipe.dispatch_spec c 0#24
    exact ⟨hcause, hepc, hpc, hpl, hmmucr, rfl, fun hfoft => (hflushed hfoft).2,
      fun hfoft => (hkept hfoft).2, hcr0, hcr1, hhandler, hmaps, hdevices⟩

end Sys2Proof.Machine
end

section
/-! Translation (R52 to R58): what the mapping half answers in each of its cases, and the order of the
checks; and the device bus (R62 to R65) for an address without an owner and for its first owner. -/

namespace Sys2Proof.Machine

/-! ### One mapping entry -/

theorem MapEntry.covers_eq_false_iff (e : MapEntry) (va : Word) :
    e.covers va = false ↔ ¬(e.vbase.toNat ≤ va.toNat ∧ va.toNat < e.vbase.toNat + e.size.toNat) := by
  rw [← e.covers_iff va, Bool.not_eq_true]

/-- At or above VBASE the offset into the mapping does not borrow (R54). -/
theorem MapEntry.physical_toNat {e : MapEntry} {va : Word} (h : e.vbase.toNat ≤ va.toNat) :
    (e.physical va).toNat = (e.pbase.toNat + (va.toNat - e.vbase.toNat)) % 2 ^ 32 := by
  rw [MapEntry.physical, BitVec.toNat_add, BitVec.toNat_sub_of_le (BitVec.le_def.2 h)]

/-- Settles O43: each part is the bound of `covers_iff` on a word below 2^32; a covered address is not
below VBASE, which is what the physical address needs. -/
theorem entryMatchIsUnbounded : Obligations.EntryMatchIsUnbounded := by
  intro e va
  have hva : va.toNat < 2 ^ 32 := va.isLt
  refine ⟨e.covers_iff va, fun hsize => ?sizeZero, fun hbelow => ?below, fun hpast hle => ?past,
    fun hcovers => MapEntry.physical_toNat ((e.covers_iff va).1 hcovers).1⟩
  case sizeZero =>
    have hzero : e.size.toNat = 0 := by simp [hsize]
    exact (e.covers_eq_false_iff va).2 (by omega)
  case below => exact (e.covers_eq_false_iff va).2 (by omega)
  case past => exact (e.covers_iff va).2 ⟨hle, by omega⟩

/-! ### The mapping half of a translation -/

theorem State.mapAddress_of_mmuOff {s : State} (h : s.mmucr.getLsbD 0 = false) (va : Word) (acc : AccessType) :
    s.mapAddress va acc = .ok va := by
  rw [State.mapAddress, mmuEn, h, if_neg Bool.false_ne_true]

/-- With EN set, the entry that the search through the active table finds decides (R52). -/
theorem State.mapAddress_of_mmuOn {s : State} (h : s.mmucr.getLsbD 0 = true) (va : Word) (acc : AccessType) :
    s.mapAddress va acc =
      (s.activeMap.toList.find? fun e => e.covers va).elim (.error .noMapping) fun e =>
        if e.permits acc = true then .ok (e.physical va) else .error (protectionCause acc) := by
  rw [State.mapAddress, mmuEn, if_pos h]
  cases s.activeMap.toList.find? fun e => e.covers va <;> rfl

/-- Element `i` of the active table's list is the entry `i` that AMI selects (R46, R48). -/
theorem State.activeMap_getElem (s : State) (i : Nat) (h : i < 32) :
    s.activeMap.toList[i]'(by simpa using h) = s.entry (s.mmucr.extractLsb' 8 2) ⟨i, h⟩ :=
  s.map_getElem (s.mmucr.extractLsb' 8 2) i h

theorem State.find_covers_eq_none {s : State} {va : Word}
    (h : ∀ j : Fin 32, (s.entry (s.mmucr.extractLsb' 8 2) j).covers va = false) :
    (s.activeMap.toList.find? fun e => e.covers va) = none := by
  rw [List.find?_eq_none]
  intro e he
  obtain ⟨i, hi, rfl⟩ := List.mem_iff_getElem.1 he
  have hi32 : i < 32 := by simpa using hi
  simpa [s.activeMap_getElem i hi32] using h ⟨i, hi32⟩

theorem State.find_covers_eq_first {s : State} {va : Word} {i : Fin 32}
    (hi : (s.entry (s.mmucr.extractLsb' 8 2) i).covers va = true)
    (hfirst : ∀ j : Fin 32, j < i → (s.entry (s.mmucr.extractLsb' 8 2) j).covers va = false) :
    (s.activeMap.toList.find? fun e => e.covers va) = some (s.entry (s.mmucr.extractLsb' 8 2) i) := by
  rw [← s.activeMap_getElem i i.isLt]
  refine find_first _ _ i.val (by simp) (by rw [s.activeMap_getElem i i.isLt]; exact hi) fun j hj hlt => ?_
  have hj32 : j < 32 := by simpa using hj
  rw [s.activeMap_getElem j hj32]
  exact hfirst ⟨j, hj32⟩ hlt

/-! ### The whole translation -/

theorem State.translate_of_unmapped {s : State} {va : Word} {acc : AccessType} {c : Cause}
    (h : s.mapAddress va acc = .error c) (sz : SizeCode) : s.translate va acc sz = .error c := by
  simp [State.translate, h]

/-- Once the address is mapped and permitted, the alignment of the physical address alone decides (R52). -/
theorem State.translate_of_mapped {s : State} {va pa : Word} {acc : AccessType}
    (h : s.mapAddress va acc = .ok pa) (sz : SizeCode) :
    s.translate va acc sz = (alignmentFault (s.mmucr.getLsbD 4) pa sz).elim (.ok pa) .error := by
  simp only [State.translate, h, mmuXma]
  cases alignmentFault (s.mmucr.getLsbD 4) pa sz <;> rfl

/-- The alignment checks in the order of R52, with a result for each. -/
theorem alignmentFault_elim (xma : Bool) (pa : Word) (sz : SizeCode) :
    (alignmentFault xma pa sz).elim (Except.ok pa) Except.error =
      if sz = .execute ∧ pa.toNat % 4 ≠ 0 then .error .fetchMisalign
      else if xma = true ∧ sz = .short ∧ pa.toNat % 2 ≠ 0 then .error .dataMisalign
      else if xma = true ∧ sz = .long ∧ pa.toNat % 4 ≠ 0 then .error .dataMisalign
      else .ok pa := by
  obtain ⟨hbyte, hshort, hlong, hexecute⟩ := alignmentFault_eq xma pa
  cases sz with
  | byte => simp [hbyte]
  | short => rw [hshort, apply_ite (fun f : Option Cause => f.elim _ _)]; simp
  | long => rw [hlong, apply_ite (fun f : Option Cause => f.elim _ _)]; simp
  | execute => rw [hexecute, apply_ite (fun f : Option Cause => f.elim _ _)]; simp

/-- The protection checks of the three access types are one: of the three bits only the access's own can
raise (R55). -/
theorem MapEntry.permits_ite (e : MapEntry) (acc : AccessType) (r : Except Cause Word) :
    (if e.permits acc = true then r else .error (protectionCause acc)) =
      if acc = .read ∧ e.attr.getLsbD 0 = false then .error .protRead
      else if acc = .write ∧ e.attr.getLsbD 1 = false then .error .protWrite
      else if acc = .exec ∧ e.attr.getLsbD 2 = false then .error .protExec
      else r := by
  cases acc <;> simp only [MapEntry.permits, protectionCause, reduceCtorEq, true_and, false_and, if_false,
    ← Bool.not_eq_true, ite_not] <;> congr

/-- Settles O44: with EN clear the mapping half answers `va`, so each size has its alignment check left. -/
theorem mmuOffPassesThrough : Obligations.MmuOffPassesThrough := by
  intro s va acc hoff
  have haligned (sz : SizeCode) := State.translate_of_mapped (s.mapAddress_of_mmuOff hoff va acc) sz
  simp only [haligned, alignmentFault_elim]
  refine ⟨?byte, ?execute, ?short, ?long⟩
  case execute => by_cases h : va.toNat % 4 = 0 <;> simp [h]
  all_goals simp

/-- Settles O45: the search finds nothing or the first covering entry; behind that entry comes its
permission, and behind the permission the alignment. -/
theorem mmuOnTranslatesByFirstMatch : Obligations.MmuOnTranslatesByFirstMatch := by
  intro s va acc sz hon
  refine ⟨fun hnone => State.translate_of_unmapped ?_ sz, fun i hi hfirst => ?_⟩
  · rw [State.mapAddress_of_mmuOn hon, State.find_covers_eq_none hnone]
    rfl
  · have hmap := State.mapAddress_of_mmuOn hon va acc
    rw [State.find_covers_eq_first hi hfirst, Option.elim_some] at hmap
    simp only [← alignmentFault_elim]
    rw [← MapEntry.permits_ite]
    by_cases hpermits : (s.entry (s.mmucr.extractLsb' 8 2) i).permits acc = true
    · rw [if_pos hpermits] at hmap ⊢
      exact State.translate_of_mapped hmap sz
    · rw [if_neg hpermits] at hmap ⊢
      exact State.translate_of_unmapped hmap sz

/-! ### An address without an owner -/

theorem MemDevice.owns_eq_false_iff (d : MemDevice) (pa : Word) :
    d.owns pa = false ↔ ¬(d.start ≤ pa.toNat ∧ pa.toNat < d.stop) := by
  rw [← d.owns_iff pa, Bool.not_eq_true]

theorem ownerOf_eq_none_iff (ds : List MemDevice) (pa : Word) :
    ownerOf ds pa = none ↔ ∀ d ∈ ds, ¬(d.start ≤ pa.toNat ∧ pa.toNat < d.stop) := by
  simp only [ownerOf, List.find?_eq_none, MemDevice.owns_iff]

/-- Open bus (R64). -/
theorem State.busRead_unowned {s : State} {pa : Word} (h : ownerOf s.devices pa = none) (sz : SizeCode) :
    s.busRead pa sz = (Config.openBus, s) := by
  rw [State.busRead, devicesRead_unowned h]
  rfl

/-- A write that no device owns is dropped (R65). -/
theorem State.busWrite_unowned {s : State} {pa : Word} (h : ownerOf s.devices pa = none) (sz : SizeCode)
    (v : Word) : s.busWrite pa sz v = s := by
  rw [State.busWrite, devicesWrite_unowned h]
  rfl

/-- The open-bus word lies in the reserved group 11111 (R95). -/
theorem decode_openBus : decode Config.openBus = .ok .cpi1 := by decide

/-- Executing what a fetch from open bus yields (R64, R147). -/
theorem executeWord_openBus (u : State) : AnswersRaising (executeWord Config.openBus u) u 0x07#8 0#24 := by
  rw [executeWord, decode_openBus]
  exact answersRaising_retireRaise u .illegalInstruction 0#24 rfl

/-- Settles O47: every read answers the open-bus word, and that word decodes to a reserved coprocessor
instruction. -/
theorem openBusReadsAllOnes : Obligations.OpenBusReadsAllOnes := by
  intro s pa hunowned
  have hopen := State.busRead_unowned ((ownerOf_eq_none_iff s.devices pa).2 hunowned)
  refine ⟨hopen, fun u => ?_⟩
  rw [hopen]
  exact executeWord_openBus u

/-! ### The first owner -/

/-- A mask of `n` low bits is the remainder modulo `2 ^ n` (R10). -/
theorem and_lowMask (v : Word) (n : Nat) :
    v &&& BitVec.ofNat 32 (2 ^ n - 1) = BitVec.ofNat 32 (v.toNat % 2 ^ n) := by
  rw [← Nat.and_two_pow_sub_one_eq_mod, BitVec.ofNat_and, BitVec.ofNat_toNat, BitVec.setWidth_eq]

theorem sizeMask_byte (v : Word) : sizeMask v .byte = BitVec.ofNat 32 (v.toNat % 2 ^ 8) := and_lowMask v 8

theorem sizeMask_short (v : Word) : sizeMask v .short = BitVec.ofNat 32 (v.toNat % 2 ^ 16) := and_lowMask v 16

section FirstOwner

variable {s : State} {pa : Word} {before after : List MemDevice} {d : MemDevice}

/-- A read reaches the first owner and no other device (R62, R63). -/
theorem State.busRead_firstOwner (hdevices : s.devices = before ++ d :: after)
    (hbefore : ∀ b ∈ before, ¬(b.start ≤ pa.toNat ∧ pa.toNat < b.stop))
    (howns : d.start ≤ pa.toNat ∧ pa.toNat < d.stop) (sz : SizeCode) :
    s.busRead pa sz = (sizeMask (d.read (d.localAddr pa) sz).1 sz,
      s.setDevices (before ++ (d.read (d.localAddr pa) sz).2 :: after)) := by
  rw [State.busRead, hdevices, devicesRead_append before after d pa sz
    (fun b hb => (b.owns_eq_false_iff pa).2 (hbefore b hb)) ((d.owns_iff pa).2 howns)]

/-- A write reaches the first owner and no other device (R62, R65). -/
theorem State.busWrite_firstOwner (hdevices : s.devices = before ++ d :: after)
    (hbefore : ∀ b ∈ before, ¬(b.start ≤ pa.toNat ∧ pa.toNat < b.stop))
    (howns : d.start ≤ pa.toNat ∧ pa.toNat < d.stop) (sz : SizeCode) (v : Word) :
    s.busWrite pa sz v =
      s.setDevices (before ++ d.write (d.localAddr pa) (sizeMask v sz) sz :: after) := by
  rw [State.busWrite, hdevices, devicesWrite_append before after d pa v sz
    (fun b hb => (b.owns_eq_false_iff pa).2 (hbefore b hb)) ((d.owns_iff pa).2 howns)]

end FirstOwner

/-- Settles O48: the answer of the first owner, whose mask is read off size by size. -/
theorem readsGoToTheFirstOwner : Obligations.ReadsGoToTheFirstOwner := by
  intro s pa
  refine ⟨fun hunowned sz => ?unowned, fun before after d hdevices hbefore hstart hstop => ?owned⟩
  case unowned =>
    rw [State.busRead_unowned ((ownerOf_eq_none_iff s.devices pa).2 hunowned)]
    rfl
  case owned =>
    intro localAddr sz
    rw [State.busRead_firstOwner hdevices hbefore ⟨hstart, hstop⟩]
    cases sz <;> rfl

/-- Settles O49: the call of the first owner, whose value is masked by the size, which is truncation. -/
theorem writesGoToTheFirstOwner : Obligations.WritesGoToTheFirstOwner := by
  intro s pa v
  refine ⟨fun hunowned sz => State.busWrite_unowned ((ownerOf_eq_none_iff s.devices pa).2 hunowned) sz v,
    fun before after d hdevices hbefore hstart hstop => ?owned⟩
  have hwrite (sz : SizeCode) := State.busWrite_firstOwner hdevices hbefore ⟨hstart, hstop⟩ sz v
  refine ⟨?byte, ?short, hwrite .long⟩
  case byte =>
    rw [hwrite, sizeMask_byte]
    rfl
  case short =>
    rw [hwrite, sizeMask_short]
    rfl

end Sys2Proof.Machine
end

section
/-! The encoding (R81 to R91, R94 to R96): each format's encoding of its own fields is the word with the
ignored bits 0; the ignored bits reach neither the group nor any field; and the words that decode to no
instruction, or to one that only raises. -/

namespace Sys2Proof

/-! ### Reading fields and putting them back -/

theorem ofBool_flag (w : Word) (i : Nat) : BitVec.ofBool (flag w i) = bits w i 1 := by
  apply BitVec.eq_of_getLsbD_eq
  intro j hj
  obtain rfl : j = 0 := by omega
  simp [flag, bits]

theorem ofBool_of_flag {w : Word} {i : Nat} {b : Bool} (h : flag w i = b) : BitVec.ofBool b = bits w i 1 :=
  h ▸ ofBool_flag w i

/-- A field put back where it was read is the word under the field's mask. -/
theorem place_bits (w : Word) (lo len : Nat) (h : lo + len ≤ 32) :
    place lo (bits w lo len) = w &&& place lo (BitVec.allOnes len) := by
  apply BitVec.eq_of_getLsbD_eq
  intro i hi
  rw [BitVec.getLsbD_and, getLsbD_place _ _ _ h, getLsbD_place _ _ _ h]
  by_cases hlo : lo ≤ i
  · simp [bits, hlo, Bool.and_comm]
  · simp [hlo]

/-- Words that agree outside a mask agree on every field that the mask does not touch. -/
theorem bits_congr {w v m : Word} (h : w &&& ~~~m = v &&& ~~~m) {lo len : Nat} (hm : bits m lo len = 0#len) :
    bits w lo len = bits v lo len := by
  apply BitVec.eq_of_getLsbD_eq
  intro i hi
  have hclear : m.getLsbD (lo + i) = false := by
    simpa [bits, hi] using congrArg (fun x : BitVec len => x.getLsbD i) hm
  have hbit := congrArg (fun x : Word => x.getLsbD (lo + i)) h
  simp only [BitVec.getLsbD_and, BitVec.getLsbD_not, hclear] at hbit
  by_cases hin : lo + i < 32
  · simpa [bits, hi, hin] using hbit
  · simp [bits, BitVec.getLsbD_of_ge _ _ (Nat.le_of_not_lt hin)]

/-- A word with no ignored bit is its own canonical form. -/
theorem and_not_zero (x : Word) : x &&& ~~~0#32 = x := by rw [BitVec.not_zero, BitVec.and_allOnes]

theorem flag_congr {w v m : Word} (h : w &&& ~~~m = v &&& ~~~m) {i : Nat} (hm : bits m i 1 = 0#1) :
    flag w i = flag v i := by
  have hbits : BitVec.ofBool (flag w i) = BitVec.ofBool (flag v i) := by
    rw [ofBool_flag, ofBool_flag, bits_congr h hm]
  rw [← getLsbD_ofBool_zero (flag w i), hbits, getLsbD_ofBool_zero]

theorem groupOf_toNat (w : Word) : (groupOf w).toNat = (w >>> 27).toNat := by
  have hw := w.isLt
  simp only [groupOf, bits, BitVec.extractLsb'_toNat, BitVec.toNat_ushiftRight, Nat.shiftRight_eq_div_pow]
  omega

/-- The statements give a word's group as `w >>> 27`; the decoder reads it as a 5-bit field (R81). -/
theorem shift_eq_iff (w g : Word) : w >>> 27 = g ↔ (groupOf w).toNat = g.toNat := by
  rw [groupOf_toNat, BitVec.toNat_inj]

theorem flag_27_eq (w : Word) : flag w 27 = decide ((groupOf w).toNat % 2 = 1) := by
  rw [groupOf_toNat, BitVec.toNat_ushiftRight, Nat.shiftRight_eq_div_pow, ← Nat.testBit_eq_decide_div_mod_eq]
  rfl

theorem flag_31_eq (w : Word) : flag w 31 = decide (16 ≤ (groupOf w).toNat) := by
  have hw := w.isLt
  have htop : flag w 31 = decide (w.toNat / 2 ^ 31 % 2 = 1) := Nat.testBit_eq_decide_div_mod_eq
  rw [htop, groupOf_toNat, BitVec.toNat_ushiftRight, Nat.shiftRight_eq_div_pow, decide_eq_decide]
  omega

/-! ### The encoder, by the format of the instruction -/

theorem encode_aluReg (op : AluOp) (rd rs0 rs1 : RegNum) :
    encode (.aluReg op rd rs0 rs1) = encodeAluReg op rd rs0 rs1 := by cases op <;> rfl

theorem encode_aluImm (op : AluOp) (rd : RegNum) (imm16 : BitVec 16) (s : Bool) :
    encode (.aluImm op rd imm16 s) = encodeAluImm op rd imm16 s := by cases op <;> rfl

theorem encode_branchImm (c : Cond) (u : Bool) (ra rb : RegNum) (imm16 : BitVec 16) (l : Bool) :
    encode (.branchImm c u ra rb imm16 l) = encodeBranchImm c u ra rb imm16 l := by cases c <;> cases u <;> rfl

theorem encode_branchReg (c : Cond) (ra rb rt : RegNum) (r l : Bool) :
    encode (.branchReg c ra rb rt r l) = encodeBranchReg c ra rb rt r l := by cases c <;> rfl

theorem encode_setCond (c : Cond) (rd rs : RegNum) (imm16 : BitVec 16) (s : Bool) :
    encode (.setCond c rd rs imm16 s) = encodeSetCond c rd rs imm16 s := by cases c <;> rfl

/-! ### What each format's decoder can answer -/

theorem eq_ofNat_of_toNat_eq {k n : Nat} {x : BitVec k} (h : x.toNat = n) : x = BitVec.ofNat k n := by
  rw [← h, BitVec.ofNat_toNat, BitVec.setWidth_eq]

section Answers

variable {w : Word} {i : Instr}

theorem decodeBranchReg_ok (h : decodeBranchReg w = .ok i) :
    ∃ c, Cond.ofCode (bits w 2 3) = some c ∧
      i = .branchReg c (bits w 22 5) (bits w 17 5) (bits w 12 5) (flag w 1) (flag w 0) := by
  unfold decodeBranchReg at h
  split at h
  case h_1 c hc => exact ⟨c, hc, (Except.ok.inj h).symm⟩
  case h_2 => cases h

theorem decodeCop_ok (h : decodeCop w = .ok i) :
    (bits w 0 5).toNat < 2 ∧
      encode i = encodeCop (bits w 0 5) (bits w 22 5) (bits w 12 10).toNat (bits w 7 5).toNat := by
  unfold decodeCop at h
  split at h
  case h_3 => cases h
  all_goals
    rename_i hop
    cases h
    exact ⟨by omega, by rw [eq_ofNat_of_toNat_eq hop]; rfl⟩

theorem decodeSys_ok (h : decodeSys w = .ok i) : encode i = encodeSys (bits w 24 3) (bits w 0 24) := by
  unfold decodeSys at h
  split at h
  case h_8 => cases h
  all_goals
    rename_i hsop
    cases h
    rw [eq_ofNat_of_toNat_eq hsop]
    rfl

/-- The operand and mode fields of a load/store word are its bits 21:7 and 2:0. -/
theorem decodeAddrMode_ok {addr : AddrMode} (h : decodeAddrMode w = .ok addr) :
    (bits w 0 3).toNat < 6 ∧ encodeAddrMode addr = w &&& 0x003FFF87#32 := by
  unfold decodeAddrMode at h
  split at h
  case h_7 => cases h
  all_goals
    rename_i hmode
    cases h
    refine ⟨by omega, ?_⟩
    simp (disch := decide) only [encodeAddrMode, encodeIndexed, encodeOffset, BitVec.ofNat_toNat,
      BitVec.setWidth_eq, ← eq_ofNat_of_toNat_eq hmode, place_bits, ← BitVec.and_or_distrib_left]
    rfl

theorem decodeLoadStore_ok (h : decodeLoadStore w = .ok i) :
    ∃ addr, decodeAddrMode w = .ok addr ∧ (bits w 3 2).toNat < 3 ∧ (bits w 5 2).toNat < 3 ∧
      encode i = encodeLoadStore (bits w 3 2) (bits w 5 2) (bits w 22 5) addr := by
  unfold decodeLoadStore at h
  split at h
  case h_1 => cases h
  case h_2 addr haddr =>
    refine ⟨addr, haddr, ?_⟩
    split at h
    case h_10 | h_11 => cases h
    all_goals
      rename_i hlop hsize
      cases h
      refine ⟨by omega, by omega, ?_⟩
      rw [eq_ofNat_of_toNat_eq hlop, eq_ofNat_of_toNat_eq hsize]
      rfl

theorem decodeConditional_ok (h : decodeConditional w = .ok i) :
    ∃ c, Cond.ofCode (bits w 28 3) = some c ∧
      (flag w 27 = false ∧
          i = .branchImm c (flag w 31) (bits w 22 5) (bits w 17 5) (bits w 1 16) (flag w 0) ∨
        flag w 27 = true ∧ flag w 31 = true ∧
          i = .setCond c (bits w 22 5) (bits w 17 5) (bits w 1 16) (flag w 0)) := by
  unfold decodeConditional at h
  split at h
  case h_1 =>
    rename_i c hc h27
    exact ⟨c, hc, .inl ⟨h27, (Except.ok.inj h).symm⟩⟩
  case h_2 =>
    rename_i c hc h27 h31
    exact ⟨c, hc, .inr ⟨h27, h31, (Except.ok.inj h).symm⟩⟩
  case h_3 => cases h

end Answers

/-! ### Encoding what a word decodes to

Each format's fields, put back where the decoder read them, are the word under one mask: their masks'
union. -/

section Fields

variable {w : Word} {i : Instr}

theorem encode_decodeAlu (hg : groupOf w = 0#5) :
    encode (decodeAlu w) = w &&& ~~~(if flag w 1 then 0#32 else 0x00000FC1#32) := by
  unfold decodeAlu
  cases hform : flag w 1
  case false =>
    have hbit : 0#1 = bits w 1 1 := ofBool_of_flag hform
    simp (disch := decide) only [Bool.false_eq_true, if_false, encode_aluReg, encodeAluReg, AluOp.code_ofCode,
      hbit, ← hg, groupOf, place_bits, ← BitVec.and_or_distrib_left]
    rfl
  case true =>
    have hbit : 1#1 = bits w 1 1 := ofBool_of_flag hform
    simp (disch := decide) only [if_true, encode_aluImm, encodeAluImm, AluOp.code_ofCode, hbit, ← hg, groupOf,
      ofBool_flag, place_bits, ← BitVec.and_or_distrib_left]
    rfl

theorem encode_decodeBranchReg (hg : groupOf w = 13#5) (h : decodeBranchReg w = .ok i) :
    encode i = w &&& ~~~0x00000FE0#32 := by
  obtain ⟨c, hc, rfl⟩ := decodeBranchReg_ok h
  simp (disch := decide) only [encode_branchReg, encodeBranchReg, Cond.code_of_ofCode _ _ hc, ← hg, groupOf,
    ofBool_flag, place_bits, ← BitVec.and_or_distrib_left]
  rfl

theorem encode_decodeCop (hg : groupOf w = 14#5) (h : decodeCop w = .ok i) :
    encode i = w &&& ~~~0x00000060#32 := by
  simp (disch := decide) only [(decodeCop_ok h).2, encodeCop, BitVec.ofNat_toNat, BitVec.setWidth_eq, ← hg,
    groupOf, place_bits, ← BitVec.and_or_distrib_left]
  rfl

theorem encode_decodeSys (hg : groupOf w = 15#5) (h : decodeSys w = .ok i) : encode i = w &&& ~~~0#32 := by
  simp (disch := decide) only [decodeSys_ok h, encodeSys, ← hg, groupOf, place_bits,
    ← BitVec.and_or_distrib_left]
  rfl

theorem encode_decodeLoadStore (hg : groupOf w = 16#5) (h : decodeLoadStore w = .ok i) :
    encode i = w &&& ~~~0#32 := by
  obtain ⟨addr, haddr, -, -, hencode⟩ := decodeLoadStore_ok h
  simp (disch := decide) only [hencode, encodeLoadStore, (decodeAddrMode_ok haddr).2, ← hg, groupOf, place_bits,
    ← BitVec.and_or_distrib_left]
  rfl

theorem encode_decodeLoadImm (hg : groupOf w = 17#5) : encode (decodeLoadImm w) = w &&& ~~~0#32 := by
  simp (disch := decide) only [decodeLoadImm, encode, encodeLoadImm, BitVec.ofNat_toNat, BitVec.setWidth_eq,
    ← hg, groupOf, ofBool_flag, place_bits, ← BitVec.and_or_distrib_left]
  rfl

theorem encode_decodeConditional (h : decodeConditional w = .ok i) : encode i = w &&& ~~~0#32 := by
  obtain ⟨c, hc, ⟨h27, rfl⟩ | ⟨h27, h31, rfl⟩⟩ := decodeConditional_ok h
  · have hbit : 0#1 = bits w 27 1 := ofBool_of_flag h27
    simp (disch := decide) only [encode_branchImm, encodeBranchImm, Cond.code_of_ofCode _ _ hc, hbit,
      ofBool_flag, place_bits, ← BitVec.and_or_distrib_left]
    rfl
  · have hplace27 : place 27 1#1 = place 27 (bits w 27 1) := congrArg (place 27) (ofBool_of_flag h27)
    have hplace31 : place 31 1#1 = place 31 (bits w 31 1) := congrArg (place 31) (ofBool_of_flag h31)
    simp (disch := decide) only [encode_setCond, encodeSetCond, Cond.code_of_ofCode _ _ hc, hplace27, hplace31,
      ofBool_flag, place_bits, ← BitVec.and_or_distrib_left]
    rfl

theorem place_groupOf (w : Word) : place 27 (groupOf w) = w &&& ~~~0x07FFFFFF#32 :=
  place_bits w 27 5 (by decide)

/-- No bit that a format uses is dropped: the encoding of what a word decodes to is the word with its
ignored bits 0 (R82 to R91). -/
theorem encode_of_decode (h : decode w = .ok i) : encode i = w &&& ~~~ignoredBits w := by
  unfold decode at h
  split at h
  case h_9 =>
    rw [encode_decodeConditional h]
    unfold ignoredBits
    split
    case h_6 => rfl
    all_goals contradiction
  all_goals
    rename_i hg
    simp only [ignoredBits, hg]
    replace hg := eq_ofNat_of_toNat_eq hg
  case h_1 => cases h; exact encode_decodeAlu hg
  case h_2 => exact encode_decodeBranchReg hg h
  case h_3 => exact encode_decodeCop hg h
  case h_4 => exact encode_decodeSys hg h
  case h_5 => exact encode_decodeLoadStore hg h
  case h_6 => cases h; exact encode_decodeLoadImm hg
  case h_7 | h_8 =>
    cases h
    rw [← place_groupOf, hg]
    rfl

end Fields

/-! ### The ignored bits -/

/-- The five masks of ignored bits, with the words each belongs to (R91, R95). -/
theorem ignoredBits_cases (w : Word) :
    ignoredBits w = 0#32 ∨
      ((groupOf w).toNat = 0 ∧ flag w 1 = false ∧ ignoredBits w = 0x00000FC1#32) ∨
      ((groupOf w).toNat = 13 ∧ ignoredBits w = 0x00000FE0#32) ∨
      ((groupOf w).toNat = 14 ∧ ignoredBits w = 0x00000060#32) ∨
      ((groupOf w).toNat = 30 ∨ (groupOf w).toNat = 31) ∧ ignoredBits w = 0x07FFFFFF#32 := by
  unfold ignoredBits
  split
  case h_1 hg => cases flag w 1 <;> simp [hg]
  case h_6 => exact .inl rfl
  all_goals
    rename_i hg
    simp [hg]

section Congruence

variable {w v : Word}

theorem groupOf_congr (h : w &&& ~~~ignoredBits w = v &&& ~~~ignoredBits w) : groupOf w = groupOf v := by
  refine bits_congr h ?_
  rcases ignoredBits_cases w with hm | ⟨-, -, hm⟩ | ⟨-, hm⟩ | ⟨-, hm⟩ | ⟨-, hm⟩ <;> rw [hm] <;> rfl

/-- Words that agree outside the ignored bits of one of them ignore the same bits. -/
theorem ignoredBits_congr (h : w &&& ~~~ignoredBits w = v &&& ~~~ignoredBits w) :
    ignoredBits w = ignoredBits v := by
  have hgroup := groupOf_congr h
  rcases ignoredBits_cases w with hm | ⟨hg, hf, hm⟩ | ⟨hg, hm⟩ | ⟨hg, hm⟩ | ⟨hg | hg, hm⟩ <;> rw [hm] at h ⊢
  · rw [and_not_zero, and_not_zero] at h
    rw [← h, hm]
  · have hflag : flag w 1 = flag v 1 := flag_congr h rfl
    simp [ignoredBits, ← hgroup, hg, ← hflag, hf]
  all_goals simp [ignoredBits, ← hgroup, hg]

theorem decodeAlu_congr (hw : flag w 1 = false) (h : w &&& ~~~0x00000FC1#32 = v &&& ~~~0x00000FC1#32) :
    decodeAlu w = decodeAlu v := by
  have hv : flag v 1 = false := (flag_congr h rfl).symm.trans hw
  unfold decodeAlu
  rw [if_neg (hw ▸ Bool.false_ne_true), if_neg (hv ▸ Bool.false_ne_true)]
  simp (disch := decide) only [bits_congr h]

theorem decodeBranchReg_congr (h : w &&& ~~~0x00000FE0#32 = v &&& ~~~0x00000FE0#32) :
    decodeBranchReg w = decodeBranchReg v := by
  simp (disch := decide) only [decodeBranchReg, bits_congr h, flag_congr h]

theorem decodeCop_congr (h : w &&& ~~~0x00000060#32 = v &&& ~~~0x00000060#32) : decodeCop w = decodeCop v := by
  simp (disch := decide) only [decodeCop, bits_congr h]

/-- Words that agree outside the ignored bits of one of them decode alike: to one instruction, or to one
reserved space (R91). -/
theorem decode_congr (h : w &&& ~~~ignoredBits w = v &&& ~~~ignoredBits w) : decode w = decode v := by
  have hgroup := groupOf_congr h
  rcases ignoredBits_cases w with hm | ⟨hg, hflag, hm⟩ | ⟨hg, hm⟩ | ⟨hg, hm⟩ | ⟨hg, hm⟩ <;> rw [hm] at h
  · rw [and_not_zero, and_not_zero] at h
    rw [h]
  · simp only [decode, ← hgroup, hg, decodeAlu_congr hflag h]
  · simp only [decode, ← hgroup, hg, decodeBranchReg_congr h]
  · simp only [decode, ← hgroup, hg, decodeCop_congr h]
  · rcases hg with hg | hg <;> simp only [decode, ← hgroup, hg]

end Congruence

end Sys2Proof

namespace Sys2Proof.Machine

/-! ### Executing a word -/

theorem executeWord_congr {w v : Word} (h : decode w = decode v) (s : State) :
    executeWord w s = executeWord v s := by rw [executeWord, executeWord, h]

theorem illegalForm_raises (s : State) : AnswersRaising (illegalForm s) s 0x07#8 0#24 :=
  answersRaising_retireRaise s .illegalInstruction 0#24 rfl

theorem executeWord_of_rejected {w : Word} (h : ∀ i, decode w ≠ .ok i) (s : State) :
    executeWord w s = illegalForm s := by
  unfold executeWord
  split
  case h_1 i hi => exact absurd hi (h i)
  case h_2 => rfl

/-- Settles O16: in the first part the mask is the ignored bits of `w`, and those reach no field that the
decoder reads; in the second the words have one encoding, and neither has an ignored bit. -/
theorem ignoredBitsAreNotChecked : Obligations.IgnoredBitsAreNotChecked := by
  refine ⟨fun w v m hformat hagree => ?alike, fun w v i hreg h13 h14 h30 h31 hw hv => ?injective⟩
  case alike =>
    have hmask : ignoredBits w = m := by
      simp only [shift_eq_iff] at hformat
      rcases hformat with ⟨hg, hflag, rfl⟩ | ⟨hg, rfl⟩ | ⟨hg, rfl⟩
      · have hform : flag w 1 = false := hflag
        simp [ignoredBits, hg, hform]
      all_goals simp [ignoredBits, hg]
    have hdecode : decode w = decode v := decode_congr (hmask ▸ hagree)
    exact ⟨fun i => by rw [hdecode], executeWord_congr hdecode⟩
  case injective =>
    have hmask : ignoredBits w = 0#32 := by
      simp only [ne_eq, shift_eq_iff] at hreg h13 h14 h30 h31
      rcases ignoredBits_cases w with hm | ⟨hg, hflag, -⟩ | ⟨hg, -⟩ | ⟨hg, -⟩ | ⟨hg | hg, -⟩
      · exact hm
      · exact absurd ⟨hg, hflag⟩ hreg
      · exact absurd hg h13
      · exact absurd hg h14
      · exact absurd hg h30
      · exact absurd hg h31
    have hencode : w = v &&& ~~~ignoredBits v := by
      rw [← encode_of_decode hv, encode_of_decode hw, hmask, and_not_zero]
    have hmask' : ignoredBits v = ignoredBits w :=
      ignoredBits_congr (by conv_rhs => rw [hencode, BitVec.and_assoc, BitVec.and_self])
    rw [hencode, hmask', hmask, and_not_zero]

/-! ### Reserved space -/

section ReservedSpace

variable {w : Word}

/-- In the six reserved groups bit 27 asks for a set-if-condition and bit 31 forbids it (R82, R94). -/
theorem decode_reservedGroup (hodd : (groupOf w).toNat % 2 = 1) (hlt : (groupOf w).toNat < 13) (i : Instr) :
    decode w ≠ .ok i := by
  have hdecode : decode w = decodeConditional w := by
    unfold decode
    split
    case h_9 => rfl
    all_goals omega
  intro h
  obtain ⟨c, -, ⟨h27, -⟩ | ⟨-, h31, -⟩⟩ := decodeConditional_ok (hdecode ▸ h)
  · rw [flag_27_eq, decide_eq_false_iff_not] at h27
    exact h27 hodd
  · rw [flag_31_eq, decide_eq_true_eq] at h31
    omega

/-- Settles O18: no word of the six groups decodes to an instruction. -/
theorem reservedGroupsRaiseIllegal : Obligations.ReservedGroupsRaiseIllegal := by
  intro w s hgroup
  simp only [shift_eq_iff, BitVec.toNat_ofNat] at hgroup
  rw [executeWord_of_rejected (decode_reservedGroup (by omega) (by omega))]
  exact illegalForm_raises s

theorem executeWord_reservedCop (hg : (groupOf w).toNat = 30 ∨ (groupOf w).toNat = 31) (s : State) :
    executeWord w s = illegalForm s := by
  rcases hg with hg | hg
  all_goals
    simp only [executeWord, decode, hg]
    rfl

theorem decode_reservedCond (hg : (groupOf w).toNat = 13) (hc : bits w 2 3 = 0#3 ∨ bits w 2 3 = 7#3)
    (i : Instr) : decode w ≠ .ok i := by
  simp only [decode, hg]
  intro h
  obtain ⟨c, hcond, -⟩ := decodeBranchReg_ok h
  rcases hc with hc | hc <;> rw [hc] at hcond <;> cases hcond

theorem decode_reservedCopOp (hg : (groupOf w).toNat = 14) (hop : 2 ≤ (bits w 0 5).toNat) (i : Instr) :
    decode w ≠ .ok i := by
  simp only [decode, hg]
  intro h
  exact absurd (decodeCop_ok h).1 (by omega)

/-- `tpl0` to `tpl3` raise as sub-operation 7 does, which has no instruction (R150 to R153, R156). -/
theorem executeWord_illegalSys (hg : (groupOf w).toNat = 15)
    (hsop : (1 ≤ (bits w 24 3).toNat ∧ (bits w 24 3).toNat ≤ 4) ∨ (bits w 24 3).toNat = 7) (s : State) :
    executeWord w s = illegalForm s := by
  have hcases : (bits w 24 3).toNat = 1 ∨ (bits w 24 3).toNat = 2 ∨ (bits w 24 3).toNat = 3 ∨
      (bits w 24 3).toNat = 4 ∨ (bits w 24 3).toNat = 7 := by omega
  rcases hcases with hs | hs | hs | hs | hs
  all_goals
    simp only [executeWord, decode, hg, decodeSys, hs]
    rfl

theorem decode_reservedLoadStore (hg : (groupOf w).toNat = 16)
    (hfield : 3 ≤ (bits w 3 2).toNat ∨ 3 ≤ (bits w 5 2).toNat ∨ 6 ≤ (bits w 0 3).toNat) (i : Instr) :
    decode w ≠ .ok i := by
  simp only [decode, hg]
  intro h
  obtain ⟨addr, haddr, hlop, hsize, -⟩ := decodeLoadStore_ok h
  have hmode := (decodeAddrMode_ok haddr).1
  omega

end ReservedSpace

/-- Settles O19, field by field: the word decodes to no instruction, or to one that only raises. -/
theorem reservedFieldsRaiseIllegal : Obligations.ReservedFieldsRaiseIllegal := by
  refine ⟨fun w s hfield => ?_, rfl⟩
  have hillegal : executeWord w s = illegalForm s := by
    have hthree {x : BitVec 2} (h : x = 3#2) : 3 ≤ x.toNat := by rw [h]; decide
    simp only [shift_eq_iff] at hfield
    rcases hfield with hg | hg | ⟨hg, hcond⟩ | ⟨hg, hop⟩ | ⟨hg, hsop⟩ | ⟨hg, hls⟩
    · exact executeWord_reservedCop (.inl hg) s
    · exact executeWord_reservedCop (.inr hg) s
    · exact executeWord_of_rejected (decode_reservedCond hg hcond) s
    · exact executeWord_of_rejected (decode_reservedCopOp hg hop) s
    · exact executeWord_illegalSys hg (hsop.imp_right (congrArg BitVec.toNat)) s
    · exact executeWord_of_rejected (decode_reservedLoadStore hg (hls.imp hthree (Or.imp_left hthree))) s
  rw [hillegal]
  exact illegalForm_raises s

end Sys2Proof.Machine
end

section
/-! The coprocessor register resolver (R142): each coprocessor's table by itself, then the statement. -/

namespace Sys2Proof.Machine

theorem State.resolve_cop0 (s : State) (creg : Nat) : s.resolve 0 creg = resolveCop0 creg := rfl

theorem State.resolve_cop4 (s : State) (creg : Nat) :
    s.resolve 4 creg = resolveCop4 (s.mmucr.extractLsb' 8 2) creg := rfl

theorem State.resolve_of_ne (s : State) {cnum : Nat} (h0 : cnum ≠ 0) (h4 : cnum ≠ 4) (creg : Nat) :
    s.resolve cnum creg = none := by
  unfold State.resolve
  split
  next => exact absurd rfl h0
  next => exact absurd rfl h4
  next => rfl

theorem resolveCop0_eq_none {creg : Nat} (h : 5 ≤ creg) : resolveCop0 creg = none := by
  obtain ⟨n, rfl⟩ := Nat.exists_eq_add_of_le' h
  rfl

theorem mapFieldOf_four_mul_add (e k : Nat) : mapFieldOf (4 * e + k) = mapFieldOf k := by
  simp only [mapFieldOf, Nat.mul_add_mod]

/-- Register `4e + 1 + k` holds word `k` of entry `e`: division by 4 recovers `e`, the remainder `k`. -/
theorem resolveCop4_entryWord (ami : BitVec 2) (e : Fin 32) {k : Nat} (hk : k < 4) :
    resolveCop4 ami (4 * e.val + k + 1) = some (.mapWord ami e (mapFieldOf k)) := by
  have hentry : (4 * e.val + k) / 4 = e.val := by omega
  simp only [resolveCop4, hentry, e.isLt, dite_true, mapFieldOf_four_mul_add]

theorem resolveCop4_eq_none (ami : BitVec 2) {creg : Nat} (h : 129 ≤ creg) : resolveCop4 ami creg = none := by
  obtain ⟨n, rfl⟩ := Nat.exists_eq_add_of_le' h
  exact dif_neg (by omega)

/-- Settles O33: COP0 and MMUCR are read off the table, the words of an entry are those of
`resolveCop4_entryWord` for `k` from 0 to 3, and the bounds 5 and 129 are where the two tables end. -/
theorem resolverTable : Obligations.ResolverTable := by
  intro s
  have hword (e : Fin 32) {k : Nat} (hk : k < 4) :
      s.resolve 4 (4 * e.val + k + 1) = some (.mapWord (s.mmucr.extractLsb' 8 2) e (mapFieldOf k)) :=
    (s.resolve_cop4 _).trans (resolveCop4_entryWord _ e hk)
  refine ⟨rfl, rfl, rfl, rfl, rfl, fun creg h => ?_, rfl, fun e => ?_, fun creg h => ?_,
    fun _ creg h0 h4 => s.resolve_of_ne h0 h4 creg⟩
  · rw [s.resolve_cop0, resolveCop0_eq_none h]
  · exact ⟨hword e (k := 0) (by decide), hword e (k := 1) (by decide), hword e (k := 2) (by decide),
      hword e (k := 3) (by decide)⟩
  · rw [s.resolve_cop4, resolveCop4_eq_none _ h]

end Sys2Proof.Machine
end

section
/-! Exception entry (R179): the law of the dispatcher in `Sys2Proof/Laws`, read as the statement. -/

namespace Sys2Proof.Machine

/-- Settles O40: `State.dispatch_spec` says everything the dispatcher does. Its policy part is
`entryMmucr_policies`, at the privilege level already lowered: the order of R179's steps 4 to 7. -/
theorem dispatcherEntersTheHandler : Obligations.DispatcherEntersTheHandler := by
  intro c imm24 s
  exact s.dispatch_spec c imm24

end Sys2Proof.Machine
end

section
/-! Instructions by format (R83 to R90): a statement about every instruction is proved format by format. -/

namespace Sys2Proof

/-- Every instruction is of one of these formats, so a property of each format is one of every
instruction. -/
theorem Instr.byFormat {motive : Instr → Prop}
    (aluReg : ∀ op rd rs0 rs1, motive (.aluReg op rd rs0 rs1))
    (aluImm : ∀ op rd imm16 sx, motive (.aluImm op rd imm16 sx))
    (branchImm : ∀ c u ra rb imm16 l, motive (.branchImm c u ra rb imm16 l))
    (branchReg : ∀ c ra rb rt r l, motive (.branchReg c ra rb rt r l))
    (mtcr : ∀ rd creg cnum, motive (.mtcr rd creg cnum))
    (mfcr : ∀ rd creg cnum, motive (.mfcr rd creg cnum))
    (syscall : ∀ imm24, motive (.syscall imm24)) (debug : ∀ imm24, motive (.debug imm24))
    (swe : ∀ imm24, motive (.swe imm24))
    (tpl0 : ∀ imm24, motive (.tpl0 imm24)) (tpl1 : ∀ imm24, motive (.tpl1 imm24))
    (tpl2 : ∀ imm24, motive (.tpl2 imm24)) (tpl3 : ∀ imm24, motive (.tpl3 imm24))
    (ldB : ∀ rd addr, motive (.ldB rd addr)) (ldH : ∀ rd addr, motive (.ldH rd addr))
    (ldW : ∀ rd addr, motive (.ldW rd addr)) (stB : ∀ rd addr, motive (.stB rd addr))
    (stH : ∀ rd addr, motive (.stH rd addr)) (stW : ∀ rd addr, motive (.stW rd addr))
    (leaB : ∀ rd addr, motive (.leaB rd addr)) (leaH : ∀ rd addr, motive (.leaH rd addr))
    (leaW : ∀ rd addr, motive (.leaW rd addr))
    (li : ∀ rd imm16 sx sh, motive (.li rd imm16 sx sh))
    (setCond : ∀ c rd rs imm16 sx, motive (.setCond c rd rs imm16 sx))
    (cpi0 : motive .cpi0) (cpi1 : motive .cpi1) (i : Instr) : motive i := by
  cases i with
  | add => exact aluReg .add ..
  | sub => exact aluReg .sub ..
  | mul => exact aluReg .mul ..
  | mac => exact aluReg .mac ..
  | div => exact aluReg .div ..
  | mod => exact aluReg .mod ..
  | and => exact aluReg .and ..
  | or => exact aluReg .or ..
  | xor => exact aluReg .xor ..
  | lsl => exact aluReg .lsl ..
  | lsr => exact aluReg .lsr ..
  | asr => exact aluReg .asr ..
  | sextb => exact aluReg .sextb ..
  | sexth => exact aluReg .sexth ..
  | rol => exact aluReg .rol ..
  | ror => exact aluReg .ror ..
  | addImm => exact aluImm .add ..
  | subImm => exact aluImm .sub ..
  | mulImm => exact aluImm .mul ..
  | macImm => exact aluImm .mac ..
  | divImm => exact aluImm .div ..
  | modImm => exact aluImm .mod ..
  | andImm => exact aluImm .and ..
  | orImm => exact aluImm .or ..
  | xorImm => exact aluImm .xor ..
  | lslImm => exact aluImm .lsl ..
  | lsrImm => exact aluImm .lsr ..
  | asrImm => exact aluImm .asr ..
  | sextbImm => exact aluImm .sextb ..
  | sexthImm => exact aluImm .sexth ..
  | rolImm => exact aluImm .rol ..
  | rorImm => exact aluImm .ror ..
  | beq => exact branchImm .eq false ..
  | beqU => exact branchImm .eq true ..
  | bne => exact branchImm .ne false ..
  | bneU => exact branchImm .ne true ..
  | bgt => exact branchImm .gt false ..
  | bgtU => exact branchImm .gt true ..
  | bge => exact branchImm .ge false ..
  | bgeU => exact branchImm .ge true ..
  | blt => exact branchImm .lt false ..
  | bltU => exact branchImm .lt true ..
  | ble => exact branchImm .le false ..
  | bleU => exact branchImm .le true ..
  | jeq => exact branchReg .eq ..
  | jne => exact branchReg .ne ..
  | jgt => exact branchReg .gt ..
  | jge => exact branchReg .ge ..
  | jlt => exact branchReg .lt ..
  | jle => exact branchReg .le ..
  | seq => exact setCond .eq ..
  | sne => exact setCond .ne ..
  | sgt => exact setCond .gt ..
  | sge => exact setCond .ge ..
  | slt => exact setCond .lt ..
  | sle => exact setCond .le ..
  | mtcr => exact mtcr ..
  | mfcr => exact mfcr ..
  | syscall => exact syscall ..
  | debug => exact debug ..
  | swe => exact swe ..
  | tpl0 => exact tpl0 ..
  | tpl1 => exact tpl1 ..
  | tpl2 => exact tpl2 ..
  | tpl3 => exact tpl3 ..
  | ldB => exact ldB ..
  | ldH => exact ldH ..
  | ldW => exact ldW ..
  | stB => exact stB ..
  | stH => exact stH ..
  | stW => exact stW ..
  | leaB => exact leaB ..
  | leaH => exact leaH ..
  | leaW => exact leaW ..
  | li => exact li ..
  | cpi0 => exact cpi0
  | cpi1 => exact cpi1

/-! ### What decodes is well formed -/

theorem wellFormed_aluReg (op : AluOp) (rd rs0 rs1 : RegNum) : (Instr.aluReg op rd rs0 rs1).wellFormed = true := by
  cases op <;> rfl

theorem wellFormed_aluImm (op : AluOp) (rd : RegNum) (imm16 : BitVec 16) (sx : Bool) :
    (Instr.aluImm op rd imm16 sx).wellFormed = true := by cases op <;> rfl

theorem wellFormed_branchImm (c : Cond) (u : Bool) (ra rb : RegNum) (imm16 : BitVec 16) (l : Bool) :
    (Instr.branchImm c u ra rb imm16 l).wellFormed = true := by cases c <;> cases u <;> rfl

theorem wellFormed_branchReg (c : Cond) (ra rb rt : RegNum) (r l : Bool) :
    (Instr.branchReg c ra rb rt r l).wellFormed = true := by cases c <;> rfl

theorem wellFormed_setCond (c : Cond) (rd rs : RegNum) (imm16 : BitVec 16) (sx : Bool) :
    (Instr.setCond c rd rs imm16 sx).wellFormed = true := by cases c <;> rfl

section Decoded

variable {w : Word} {i : Instr}

theorem wellFormed_decodeAlu (w : Word) : (decodeAlu w).wellFormed = true := by
  unfold decodeAlu
  split
  · exact wellFormed_aluImm ..
  · exact wellFormed_aluReg ..

theorem wellFormed_of_decodeCop (h : decodeCop w = .ok i) : i.wellFormed = true := by
  have hselector : copSelectorFits (bits w 12 10).toNat (bits w 7 5).toNat = true := by
    have hcreg := (bits w 12 10).isLt
    have hcnum := (bits w 7 5).isLt
    simp only [copSelectorFits, Bool.and_eq_true, decide_eq_true_eq]
    omega
  unfold decodeCop at h
  split at h <;> cases h <;> exact hselector

theorem wellFormed_of_decodeSys (h : decodeSys w = .ok i) : i.wellFormed = true := by
  unfold decodeSys at h
  split at h <;> cases h <;> rfl

theorem wellFormed_of_decodeAddrMode {addr : AddrMode} (h : decodeAddrMode w = .ok addr) :
    addr.wellFormed = true := by
  have hsc : decide ((bits w 7 5).toNat < 32) = true := decide_eq_true (bits w 7 5).isLt
  unfold decodeAddrMode at h
  split at h <;> cases h
  case h_5 | h_6 => rfl
  all_goals exact hsc

theorem wellFormed_of_decodeLoadStore (h : decodeLoadStore w = .ok i) : i.wellFormed = true := by
  unfold decodeLoadStore at h
  split at h
  case h_1 => cases h
  case h_2 addr haddr => split at h <;> cases h <;> exact wellFormed_of_decodeAddrMode haddr

theorem wellFormed_decodeLoadImm (w : Word) : (decodeLoadImm w).wellFormed = true :=
  decide_eq_true (bits w 0 5).isLt

theorem wellFormed_of_decodeConditional (h : decodeConditional w = .ok i) : i.wellFormed = true := by
  obtain ⟨c, -, ⟨-, rfl⟩ | ⟨-, -, rfl⟩⟩ := decodeConditional_ok h
  · exact wellFormed_branchImm ..
  · exact wellFormed_setCond ..

/-- The operands held as numbers come out of fields of the widths that bound them (R86, R88, R89). -/
theorem wellFormed_of_decode (h : decode w = .ok i) : i.wellFormed = true := by
  unfold decode at h
  split at h
  case h_1 => cases h; exact wellFormed_decodeAlu w
  case h_2 =>
    obtain ⟨c, -, rfl⟩ := decodeBranchReg_ok h
    exact wellFormed_branchReg ..
  case h_3 => exact wellFormed_of_decodeCop h
  case h_4 => exact wellFormed_of_decodeSys h
  case h_5 => exact wellFormed_of_decodeLoadStore h
  case h_6 => cases h; exact wellFormed_decodeLoadImm w
  case h_7 | h_8 => cases h; rfl
  case h_9 => exact wellFormed_of_decodeConditional h

end Decoded

end Sys2Proof

namespace Sys2Proof.Machine

open Sys2Proof.Laws

/-- Settles O14, format by format: the sub-fields tell the instructions of a format apart. -/
theorem decodeOfEncodeIsIdentity : Obligations.DecodeOfEncodeIsIdentity := by
  intro i hwf
  induction i using Instr.byFormat with
  | aluReg op rd rs0 rs1 => rw [encode_aluReg, decode_encodeAluReg]
  | aluImm op rd imm16 sx => rw [encode_aluImm, decode_encodeAluImm]
  | branchImm c u ra rb imm16 l => rw [encode_branchImm, decode_encodeBranchImm]
  | branchReg c ra rb rt r l => rw [encode_branchReg, decode_encodeBranchReg]
  | setCond c rd rs imm16 sx => rw [encode_setCond, decode_encodeSetCond]
  | mtcr rd creg cnum => exact RoundTrip.mtcr rd creg cnum hwf
  | mfcr rd creg cnum => exact RoundTrip.mfcr rd creg cnum hwf
  | syscall imm24 => exact RoundTrip.syscall imm24 hwf
  | debug imm24 => exact RoundTrip.debug imm24 hwf
  | swe imm24 => exact RoundTrip.swe imm24 hwf
  | tpl0 imm24 => exact RoundTrip.tpl0 imm24 hwf
  | tpl1 imm24 => exact RoundTrip.tpl1 imm24 hwf
  | tpl2 imm24 => exact RoundTrip.tpl2 imm24 hwf
  | tpl3 imm24 => exact RoundTrip.tpl3 imm24 hwf
  | ldB rd addr => exact RoundTrip.ldB rd addr hwf
  | ldH rd addr => exact RoundTrip.ldH rd addr hwf
  | ldW rd addr => exact RoundTrip.ldW rd addr hwf
  | stB rd addr => exact RoundTrip.stB rd addr hwf
  | stH rd addr => exact RoundTrip.stH rd addr hwf
  | stW rd addr => exact RoundTrip.stW rd addr hwf
  | leaB rd addr => exact RoundTrip.leaB rd addr hwf
  | leaH rd addr => exact RoundTrip.leaH rd addr hwf
  | leaW rd addr => exact RoundTrip.leaW rd addr hwf
  | li rd imm16 sx sh => exact RoundTrip.li rd imm16 sx sh hwf
  | cpi0 => exact RoundTrip.cpi0 hwf
  | cpi1 => exact RoundTrip.cpi1 hwf

/-- Settles O15: `encode_of_decode` has the word, the widths of the decoder's fields the operands. -/
theorem encodeOfDecodeIsTheWord : Obligations.EncodeOfDecodeIsTheWord := fun _ _ h =>
  ⟨wellFormed_of_decode h, encode_of_decode h⟩

/-- Settles O17: each word is decoded by evaluation. -/
theorem exampleWordsDecode : Obligations.ExampleWordsDecode := by
  refine ⟨?_, ?_, ?_, ?_, ?_, ?_, ?_, ?_, ?_, ?_, ?_, ?_, ?_⟩ <;> decide

end Sys2Proof.Machine
end

section
/-! The cycle as a whole: it always answers a next state, and what every cycle keeps follows from the shapes
of an instruction's effect (`Effect`); the bubble, and the three cycles after a reset (R29, R196). -/

namespace Sys2Proof.Machine

/-! ### Every cycle answers, and what it keeps -/

/-- The state after an executed word, when it is named. -/
theorem effect_of_executeWord {w : Word} {s t : State} (h : executeWord w s = .next t) : Effect s t := by
  obtain ⟨t', hnext, heffect⟩ := executeWord_completes w s
  rw [h] at hnext
  cases hnext
  exact heffect

/-- Settles O3: neither the fetch nor an effect of an instruction breaks the storage form. -/
theorem stepKeepsStorageCanonical : Obligations.StepKeepsStorageCanonical := fun _ _ hwf hstep =>
  (effect_of_step hstep).wf (State.fetchCycle_wf hwf)

/-- Settles O2: the one RAM attached at reset lists no byte. -/
theorem resetStorageIsCanonical : Obligations.ResetStorageIsCanonical := rfl

theorem step_answersNext (s : State) : ∃ t, step s = .next t := by
  obtain ⟨t, hnext, -⟩ := step_completes s
  exact ⟨t, hnext⟩

theorem run_succ_of_next {M : Host.Core} {s t : M.State} (h : M.step s = .next t) (n : Nat) :
    M.run (n + 1) s = M.run n t := by
  rw [Host.Core.run, h]

theorem runsFor_succ {n : Nat} {s t : State} (hstep : step s = .next t) (hrun : RunsFor n t) :
    RunsFor (n + 1) s := by
  obtain ⟨u, hu⟩ := hrun
  exact ⟨u, (run_succ_of_next (M := Sys2Proof.core) hstep n).trans hu⟩

/-- Settles O4, the runs by induction on their length. -/
theorem everyCycleAnswersNext : Obligations.EveryCycleAnswersNext := by
  refine ⟨step_answersNext, fun n => ?_⟩
  induction n with
  | zero => exact fun s => ⟨s, rfl⟩
  | succ n ih =>
    intro s
    obtain ⟨t, hstep⟩ := step_answersNext s
    exact runsFor_succ hstep (ih t)

/-- Settles O8: the end of every effect clears x[0]. -/
theorem registerZeroReadsZero : Obligations.RegisterZeroReadsZero :=
  ⟨fun _ _ _ h => (effect_of_executeWord h).reg_zero, fun _ _ h => (effect_of_step h).reg_zero⟩

/-- Settles O10: a cycle can take two exceptions, its fetch's and its instruction's. -/
theorem privilegeLevelNeverIncreases : Obligations.PrivilegeLevelNeverIncreases := by
  refine ⟨fun _ _ _ h => (effect_of_executeWord h).pl, fun s t h => ?_⟩
  have hfetch := s.fetchCycle_pl
  have hexec := (effect_of_step h).pl
  omega

/-- Settles O13: a device call changes no range and no kind, and nothing calls a port device. -/
theorem devicesStayAttachedAndPortsUntouched : Obligations.DevicesStayAttachedAndPortsUntouched := by
  refine ⟨fun _ _ _ h => (effect_of_executeWord h).attachment, fun s t h => ?_⟩
  obtain ⟨hattachment, hports⟩ := (effect_of_step h).attachment
  obtain ⟨hattachment', hports'⟩ := s.fetchCycle_attachment
  exact ⟨hattachment.trans hattachment', hports.trans hports'⟩

/-! ### Executing what slot 1 decodes to -/

theorem State.fetchCycle_pipe2_of_ok {s : State} {pa : Word}
    (h : s.translate (s.reg pcNum) .exec .execute = .ok pa) : s.fetchCycle.pipe2 = s.pipe1 := by
  rw [State.fetchCycle_of_ok h]
  rfl

/-- After a successful fetch the cycle executes the word that was in slot 1 (R30). -/
theorem step_of_ok {s : State} {pa : Word} (h : s.translate (s.reg pcNum) .exec .execute = .ok pa) :
    step s = executeWord s.pipe1 s.fetchCycle := by
  rw [step, State.fetchCycle_pipe2_of_ok h]

theorem executeWord_of_decode {w : Word} {i : Instr} (h : decode w = .ok i) (s : State) :
    executeWord w s = exec i s := by
  rw [executeWord, h]

/-- Settles O6: the state in question is the one after the fetch half, with its fields read off. -/
theorem stepRunsDecodedInstruction : Obligations.StepRunsDecodedInstruction := by
  intro s pa i hok hdecode
  refine ⟨s.fetchCycle, by rw [step_of_ok hok, executeWord_of_decode hdecode], ?_⟩
  have hfetch := State.fetchCycle_of_ok hok
  refine ⟨?_, ?_, ?_, ?_, fun r => s.fetchCycle_reg, ?_, ?_, s.fetchCycle_attachment.2, s.fetchCycle_peekByte⟩
  all_goals simp [hfetch, ControlKept]

/-! ### The bubble -/

theorem decode_bubble : decode 0#32 = .ok (.add 0#5 0#5 0#5) := by decide

theorem State.setReg_setReg (s : State) (r : RegNum) (v w : Word) :
    (s.setReg r v).setReg r w = s.setReg r w := by
  simp [State.setReg]

/-- A write to x[0] where x[0] holds 0 leaves no trace (R22). -/
theorem State.retireWrite_zero {s : State} (h : s.reg 0#5 = 0#32) (v : Word) : s.retireWrite 0#5 v = s :=
  (s.setReg_setReg 0#5 v 0#32).trans (State.setReg_eq_self h)

/-- With destination r0 the value written does not matter (R22). -/
theorem completesWriting_regZero (s : State) (v w : Word) :
    CompletesWriting (.next (s.retireWrite 0#5 w)) s 0#5 v := by
  obtain ⟨⟨hzero, -, hother⟩, hpc, hpipe, hcontrol⟩ := s.retireWrite_writes 0#5 w
  exact ⟨_, rfl, ⟨⟨hzero, absurd rfl, hother⟩, hpc, hpipe, hcontrol⟩, s.retireWrite_noDeviceCall 0#5 w⟩

theorem executeWord_bubble (s : State) :
    executeWord 0#32 s = .next (s.retireWrite 0#5 (s.reg 0#5 + s.reg 0#5)) :=
  executeWord_of_decode decode_bubble s

theorem executeWord_bubble_eq_self {s : State} (h : s.reg 0#5 = 0#32) : executeWord 0#32 s = .next s := by
  rw [executeWord_bubble, State.retireWrite_zero h]

/-- Settles O9: the bubble's one write is to x[0]. -/
theorem zeroWordIsABubble : Obligations.ZeroWordIsABubble :=
  ⟨decode_bubble, fun s =>
    ⟨executeWord_bubble s ▸ completesWriting_regZero s _ _, executeWord_bubble_eq_self⟩⟩

/-! ### The first cycles after a reset -/

/-- A state from which cycles only fill the pipeline: translation is off, the PC is aligned, and x[0] is
clear. -/
structure FetchesUntranslated (s : State) (pc : Word) : Prop where
  pc_eq : s.reg pcNum = pc
  aligned : pc.toNat % 4 = 0
  mmucr_eq : s.mmucr = 0#32
  pl_eq : s.pl = 0#2
  regZero : s.reg 0#5 = 0#32

section FetchesUntranslated

variable {s : State} {pc : Word}

theorem fetchesUntranslated_hostReset (s : State) : FetchesUntranslated s.hostReset 0#32 :=
  ⟨State.reset_reg pcNum, rfl, rfl, rfl, State.reset_reg 0#5⟩

theorem FetchesUntranslated.translate (h : FetchesUntranslated s pc) :
    s.translate (s.reg pcNum) .exec .execute = .ok pc := by
  obtain ⟨-, hfetch, -⟩ := mmuOffPassesThrough s pc .exec (by simp [h.mmucr_eq])
  rw [h.pc_eq, hfetch, if_pos h.aligned]

theorem FetchesUntranslated.fetchCycle (h : FetchesUntranslated s pc) :
    FetchesUntranslated s.fetchCycle (pc + 4#32) where
  pc_eq := by simp [State.fetchCycle_of_ok h.translate, h.pc_eq]
  aligned := by
    have := h.aligned
    rw [BitVec.toNat_add, BitVec.toNat_ofNat]
    omega
  mmucr_eq := by simp [State.fetchCycle_of_ok h.translate, h.mmucr_eq]
  pl_eq := by simp [State.fetchCycle_of_ok h.translate, h.pl_eq]
  regZero := by rw [s.fetchCycle_reg (by decide), h.regZero]

/-- A cycle that executes a bubble is its fetch half. -/
theorem FetchesUntranslated.step_bubble (h : FetchesUntranslated s pc) (hbubble : s.pipe1 = 0#32) :
    step s = .next s.fetchCycle := by
  rw [step_of_ok h.translate, hbubble, executeWord_bubble_eq_self h.fetchCycle.regZero]

theorem FetchesUntranslated.pipe (h : FetchesUntranslated s pc) :
    s.fetchCycle.pipe0 = (s.busRead pc .execute).1 ∧ s.fetchCycle.pipe1 = s.pipe0 ∧
      s.fetchCycle.pipe2 = s.pipe1 := by
  rw [State.fetchCycle_of_ok h.translate]
  exact ⟨rfl, rfl, rfl⟩

end FetchesUntranslated

/-- Settles O7: slots 1 and 0 hold bubbles at reset, so the first two cycles are their fetch halves, and the
word of the first reaches slot 2 in the third. -/
theorem firstWordExecutesInThirdCycle : Obligations.FirstWordExecutesInThirdCycle := by
  intro s
  have hfirst := fetchesUntranslated_hostReset s
  have hsecond := hfirst.fetchCycle
  have hthird := hsecond.fetchCycle
  obtain ⟨hword, hbubble, -⟩ := hfirst.pipe
  obtain ⟨-, hword', -⟩ := hsecond.pipe
  obtain ⟨-, -, hslot2⟩ := hthird.pipe
  have hexecuted := hword'.trans hword
  refine ⟨_, _, s.hostReset.fetchCycle.fetchCycle.fetchCycle, hfirst.step_bubble rfl,
    hsecond.step_bubble hbubble, ?_, hslot2.trans hexecuted, hthird.fetchCycle.pc_eq, hthird.fetchCycle.pl_eq,
    hthird.fetchCycle.mmucr_eq⟩
  rw [step_of_ok hthird.translate, hexecuted]

end Sys2Proof.Machine
end

section
/-! The privilege level (R38, R187): while no entry policy is set, every operation of the model commutes with
replacing it. The meanings of the instructions, by format. -/

namespace Sys2Proof.Machine

/-! ### The meaning of an instruction, by its format -/

theorem exec_aluReg (op : AluOp) (rd rs0 rs1 : RegNum) (s : State) :
    exec (.aluReg op rd rs0 rs1) s = aluRegForm op rd rs0 rs1 s := by cases op <;> rfl

theorem exec_aluImm (op : AluOp) (rd : RegNum) (imm16 : BitVec 16) (sx : Bool) (s : State) :
    exec (.aluImm op rd imm16 sx) s = aluImmForm op rd imm16 sx s := by cases op <;> rfl

theorem exec_branchImm (c : Cond) (u : Bool) (ra rb : RegNum) (imm16 : BitVec 16) (l : Bool) (s : State) :
    exec (.branchImm c u ra rb imm16 l) s = branchImmForm c u ra rb imm16 l s := by cases c <;> cases u <;> rfl

theorem exec_branchReg (c : Cond) (ra rb rt : RegNum) (r l : Bool) (s : State) :
    exec (.branchReg c ra rb rt r l) s = branchRegForm c ra rb rt r l s := by cases c <;> rfl

theorem exec_setCond (c : Cond) (rd rs : RegNum) (imm16 : BitVec 16) (sx : Bool) (s : State) :
    exec (.setCond c rd rs imm16 sx) s = setCondForm c rd rs imm16 sx s := by cases c <;> rfl

theorem branchWhen_of_taken {c : Cond} {ra rb : RegNum} {s : State}
    (h : condHolds c (s.reg ra) (s.reg rb) = true) (target : Word) (l : Bool) :
    branchWhen c ra rb target l s =
      .next (((if l then s.setReg linkNum s.pc else s).setPc target).endOfInstruction true) := if_pos h

theorem branchWhen_of_untaken {c : Cond} {ra rb : RegNum} {s : State}
    (h : ¬condHolds c (s.reg ra) (s.reg rb) = true) (target : Word) (l : Bool) :
    branchWhen c ra rb target l s = .next s.retirePlain := if_neg h

/-! ### Operations at another privilege level -/

/-- EOP1, DOP0 and RPT are clear, so exception entry keeps MMUCR (R179 steps 5 to 7). -/
structure NoEntryPolicy (s : State) : Prop where
  eop1 : mmuEop1 s.mmucr = false
  dop0 : mmuDop0 s.mmucr = false
  rpt : mmuRpt s.mmucr = false

theorem NoEntryPolicy.entryMmucr {s : State} (h : NoEntryPolicy s) (pl : PrivLevel) :
    entryMmucr pl s.mmucr = s.mmucr := by
  simp [entryMmucr_eq, h.eop1, h.dop0, h.rpt]

theorem State.flushIfFoft_setPl (s : State) (p : PrivLevel) :
    (s.setPl p).flushIfFoft = s.flushIfFoft.setPl p := by
  rw [State.flushIfFoft, State.flushIfFoft, State.foft_eq, State.foft_eq, State.setPl_cr0]
  split <;> rfl

theorem State.endOfInstruction_setPl (s : State) (flow : Bool) (p : PrivLevel) :
    (s.setPl p).endOfInstruction flow = (s.endOfInstruction flow).setPl p := by
  cases flow with
  | false => rfl
  | true => exact congrArg (State.setReg · 0#5 0#32) (s.flushIfFoft_setPl p)

theorem State.retireWrite_setPl (s : State) (rd : RegNum) (v : Word) (p : PrivLevel) :
    (s.setPl p).retireWrite rd v = (s.retireWrite rd v).setPl p :=
  (s.setReg rd v).endOfInstruction_setPl _ p

theorem State.retirePlain_setPl (s : State) (p : PrivLevel) : (s.setPl p).retirePlain = s.retirePlain.setPl p :=
  s.endOfInstruction_setPl false p

/-- The part of exception entry that the level has no part in: CAUSE, EPC and the PC (R179). -/
def State.enterHandler (c : Cause) (imm24 : BitVec 24) (s : State) : State :=
  ((s.setCause (imm24 ++ causeCode c)).setEpc s.pc).setPc s.handler

theorem State.dispatch_eq (s : State) (c : Cause) (imm24 : BitVec 24) :
    s.dispatch c imm24 = (((s.enterHandler c imm24).setPl (raisedPl s.pl)).setMmucr
      (entryMmucr (raisedPl s.pl) s.mmucr)).flushIfFoft := rfl

/-- Without a policy, exception entry lowers the level and nothing of it reads the level. -/
theorem State.dispatch_of_noEntryPolicy {s : State} (h : NoEntryPolicy s) (c : Cause) (imm24 : BitVec 24) :
    s.dispatch c imm24 = (s.enterHandler c imm24).flushIfFoft.setPl (raisedPl s.pl) := by
  rw [State.dispatch_eq, h.entryMmucr]
  exact (s.enterHandler c imm24).flushIfFoft_setPl (raisedPl s.pl)

theorem State.enterHandler_setPl (s : State) (c : Cause) (imm24 : BitVec 24) (p : PrivLevel) :
    (s.setPl p).enterHandler c imm24 = (s.enterHandler c imm24).setPl p := rfl

theorem State.dispatch_setPl {s : State} (h : NoEntryPolicy s) (c : Cause) (imm24 : BitVec 24) (p : PrivLevel) :
    (s.setPl p).dispatch c imm24 = (s.dispatch c imm24).setPl (raisedPl p) := by
  have h' : NoEntryPolicy (s.setPl p) := ⟨h.eop1, h.dop0, h.rpt⟩
  rw [State.dispatch_of_noEntryPolicy h, State.dispatch_of_noEntryPolicy h', State.enterHandler_setPl,
    State.flushIfFoft_setPl]
  rfl

theorem State.retireRaise_setPl {s : State} (h : NoEntryPolicy s) (c : Cause) (imm24 : BitVec 24)
    (p : PrivLevel) : (s.setPl p).retireRaise c imm24 = (s.retireRaise c imm24).setPl (raisedPl p) := by
  rw [State.retireRaise, State.dispatch_setPl h, State.endOfInstruction_setPl, ← State.retireRaise]

theorem State.writeCell_setPl (s : State) (cell : CopCell) (v : Word) (p : PrivLevel) :
    (s.setPl p).writeCell cell v = (s.writeCell cell v).setPl p := by
  cases cell <;> rfl

/-- A translation reads neither the level nor the registers (R48). -/
theorem State.translate_setPl (s : State) (p : PrivLevel) (va : Word) (acc : AccessType) (sz : SizeCode) :
    (s.setPl p).translate va acc sz = s.translate va acc sz := rfl

theorem State.effectiveAddress_setPl (s : State) (p : PrivLevel) (addr : AddrMode) :
    (s.setPl p).effectiveAddress addr = s.effectiveAddress addr := by
  cases addr <;> rfl

theorem State.resolve_setPl (s : State) (p : PrivLevel) (cnum creg : Nat) :
    (s.setPl p).resolve cnum creg = s.resolve cnum creg := rfl

theorem State.readCell_setPl (s : State) (p : PrivLevel) (cell : CopCell) :
    (s.setPl p).readCell cell = s.readCell cell := by
  cases cell <;> rfl

/-! ### Instructions at another privilege level -/

/-- Two outcomes that differ in the level alone. -/
def SameUpToPl (o o' : Host.Outcome State Fault Refusal) : Prop :=
  ∃ (t : State) (q : PrivLevel), o = .next t ∧ o' = .next (t.setPl q)

theorem sameUpToPl_next {t t' : State} {q : PrivLevel} (h : t' = t.setPl q) :
    SameUpToPl (.next t) (.next t') := ⟨t, q, rfl, congrArg _ h⟩

section

variable {s : State} (p : PrivLevel)

theorem retireWrite_sameUpToPl (rd : RegNum) (v : Word) :
    SameUpToPl (.next (s.retireWrite rd v)) (.next ((s.setPl p).retireWrite rd v)) :=
  sameUpToPl_next (s.retireWrite_setPl rd v p)

theorem retireRaise_sameUpToPl (h : NoEntryPolicy s) (c : Cause) (imm24 : BitVec 24) :
    SameUpToPl (.next (s.retireRaise c imm24)) (.next ((s.setPl p).retireRaise c imm24)) :=
  sameUpToPl_next (State.retireRaise_setPl h c imm24 p)

theorem finishAlu_sameUpToPl (h : NoEntryPolicy s) (rd : RegNum) (result : Option Word) :
    SameUpToPl (finishAlu rd result s) (finishAlu rd result (s.setPl p)) := by
  cases result with
  | some v => exact retireWrite_sameUpToPl p rd v
  | none => exact retireRaise_sameUpToPl p h _ _

theorem branchWhen_sameUpToPl (c : Cond) (ra rb : RegNum) (target : Word) (l : Bool) :
    SameUpToPl (branchWhen c ra rb target l s) (branchWhen c ra rb target l (s.setPl p)) := by
  by_cases htaken : condHolds c (s.reg ra) (s.reg rb) = true
  · rw [branchWhen_of_taken htaken, branchWhen_of_taken (s := s.setPl p) htaken]
    refine sameUpToPl_next (q := p) ?_
    rw [← State.endOfInstruction_setPl]
    cases l <;> rfl
  · rw [branchWhen_of_untaken htaken, branchWhen_of_untaken (s := s.setPl p) htaken]
    exact sameUpToPl_next (s.retirePlain_setPl p)

theorem execMtcr_sameUpToPl (h : NoEntryPolicy s) (rd : RegNum) (creg cnum : Nat) :
    SameUpToPl (execMtcr rd creg cnum s) (execMtcr rd creg cnum (s.setPl p)) := by
  simp only [execMtcr, State.resolve_setPl]
  cases s.resolve cnum creg with
  | none => exact retireRaise_sameUpToPl p h _ _
  | some cell =>
    refine sameUpToPl_next (q := p) ?_
    rw [State.setPl_reg, State.writeCell_setPl, State.retirePlain_setPl]

theorem execMfcr_sameUpToPl (h : NoEntryPolicy s) (rd : RegNum) (creg cnum : Nat) :
    SameUpToPl (execMfcr rd creg cnum s) (execMfcr rd creg cnum (s.setPl p)) := by
  simp only [execMfcr, State.resolve_setPl, State.readCell_setPl]
  cases s.resolve cnum creg with
  | none => exact retireRaise_sameUpToPl p h _ _
  | some cell => exact retireWrite_sameUpToPl p rd _

theorem loadForm_sameUpToPl (h : NoEntryPolicy s) (sz : SizeCode) (rd : RegNum) (addr : AddrMode) :
    SameUpToPl (loadForm sz rd addr s) (loadForm sz rd addr (s.setPl p)) := by
  simp only [loadForm, State.effectiveAddress_setPl, State.translate_setPl]
  cases s.translate (s.effectiveAddress addr) .read sz with
  | error c => exact retireRaise_sameUpToPl p h c _
  | ok pa => exact retireWrite_sameUpToPl (s := (s.busRead pa sz).2) p rd _

theorem storeForm_sameUpToPl (h : NoEntryPolicy s) (sz : SizeCode) (rd : RegNum) (addr : AddrMode) :
    SameUpToPl (storeForm sz rd addr s) (storeForm sz rd addr (s.setPl p)) := by
  simp only [storeForm, State.effectiveAddress_setPl, State.translate_setPl]
  cases s.translate (s.effectiveAddress addr) .write sz with
  | error c => exact retireRaise_sameUpToPl p h c _
  | ok pa => exact sameUpToPl_next ((s.busWrite pa sz (s.reg rd)).retirePlain_setPl p)

theorem leaForm_sameUpToPl (rd : RegNum) (addr : AddrMode) :
    SameUpToPl (leaForm rd addr s) (leaForm rd addr (s.setPl p)) := by
  simp only [leaForm, State.effectiveAddress_setPl]
  exact retireWrite_sameUpToPl p rd _

theorem exec_sameUpToPl (h : NoEntryPolicy s) (i : Instr) : SameUpToPl (exec i s) (exec i (s.setPl p)) := by
  induction i using Instr.byFormat with
  | aluReg op rd rs0 rs1 => rw [exec_aluReg, exec_aluReg]; exact finishAlu_sameUpToPl p h rd _
  | aluImm op rd imm16 sx => rw [exec_aluImm, exec_aluImm]; exact finishAlu_sameUpToPl p h rd _
  | branchImm c u ra rb imm16 l => rw [exec_branchImm, exec_branchImm]; exact branchWhen_sameUpToPl p c ra rb _ l
  | branchReg c ra rb rt r l => rw [exec_branchReg, exec_branchReg]; exact branchWhen_sameUpToPl p c ra rb _ l
  | setCond c rd rs imm16 sx => rw [exec_setCond, exec_setCond]; exact retireWrite_sameUpToPl p rd _
  | li rd imm16 sx sh => exact retireWrite_sameUpToPl p rd _
  | mtcr rd creg cnum => exact execMtcr_sameUpToPl p h rd creg cnum
  | mfcr rd creg cnum => exact execMfcr_sameUpToPl p h rd creg cnum
  | ldB rd addr | ldH rd addr | ldW rd addr => exact loadForm_sameUpToPl p h _ rd addr
  | stB rd addr | stH rd addr | stW rd addr => exact storeForm_sameUpToPl p h _ rd addr
  | leaB rd addr | leaH rd addr | leaW rd addr => exact leaForm_sameUpToPl p rd addr
  | syscall imm24 | debug imm24 | swe imm24 => exact retireRaise_sameUpToPl p h _ imm24
  | tpl0 | tpl1 | tpl2 | tpl3 | cpi0 | cpi1 => exact retireRaise_sameUpToPl p h _ _

theorem executeWord_sameUpToPl (h : NoEntryPolicy s) (w : Word) :
    SameUpToPl (executeWord w s) (executeWord w (s.setPl p)) := by
  unfold executeWord
  cases decode w with
  | ok i => exact exec_sameUpToPl p h i
  | error r => exact retireRaise_sameUpToPl p h _ _

/-! ### The fetch at another privilege level -/

theorem NoEntryPolicy.shiftPipe (h : NoEntryPolicy s) : NoEntryPolicy s.shiftPipe :=
  ⟨h.eop1, h.dop0, h.rpt⟩

theorem State.fetchCycle_setPl (h : NoEntryPolicy s) :
    ∃ q, (s.setPl p).fetchCycle = s.fetchCycle.setPl q := by
  cases htranslate : s.translate (s.reg pcNum) .exec .execute with
  | ok pa =>
    rw [State.fetchCycle_of_ok htranslate, State.fetchCycle_of_ok (s := s.setPl p) htranslate]
    exact ⟨p, rfl⟩
  | error c =>
    rw [State.fetchCycle_of_error htranslate, State.fetchCycle_of_error (s := s.setPl p) htranslate]
    exact ⟨raisedPl p, congrArg (State.setPipe0 · 0#32) (State.dispatch_setPl h.shiftPipe c 0#24 p)⟩

theorem NoEntryPolicy.fetchCycle (h : NoEntryPolicy s) : NoEntryPolicy s.fetchCycle := by
  have hmmucr : s.fetchCycle.mmucr = s.mmucr := by
    rcases s.fetchCycle_cases with ⟨pa, -, hcycle⟩ | ⟨c, -, hcycle⟩ <;> rw [hcycle]
    · rfl
    · simp [State.dispatch_of_noEntryPolicy h.shiftPipe, State.enterHandler]
  exact ⟨hmmucr ▸ h.eop1, hmmucr ▸ h.dop0, hmmucr ▸ h.rpt⟩

end

/-- Settles O11: the fetch half and the executed word each commute with replacing the level, up to the level
they leave. -/
theorem privilegeLevelInfluencesNothing : Obligations.PrivilegeLevelInfluencesNothing := by
  intro s t p heop1 hdop0 hrpt hstep
  have hpolicy : NoEntryPolicy s := ⟨heop1, hdop0, hrpt⟩
  obtain ⟨q, hfetch⟩ := State.fetchCycle_setPl p hpolicy
  obtain ⟨t', q', hnext, hnext'⟩ := executeWord_sameUpToPl q hpolicy.fetchCycle s.fetchCycle.pipe2
  obtain rfl : t' = t := Host.Outcome.next.inj (hnext.symm.trans hstep)
  have hstep' : step (s.setPl p) = .next (t'.setPl q') := by
    rw [step, hfetch]
    exact hnext'
  exact ⟨q', hstep'⟩

end Sys2Proof.Machine
end

section
/-! Values (R93, R101 to R121): what an immediate is as a word, and what each ALU operation gives, as numbers
and as bits. -/

namespace Sys2Proof.Machine

/-! ### Words and the integers they stand for -/

theorem ofInt_sub (x y : Int) : BitVec.ofInt 32 (x - y) = BitVec.ofInt 32 x - BitVec.ofInt 32 y := by
  rw [Int.sub_eq_add_neg, BitVec.ofInt_add, BitVec.ofInt_neg, BitVec.sub_eq_add_neg]

theorem ofInt_toNat (a : Word) : BitVec.ofInt 32 a.toNat = a := by
  rw [BitVec.ofInt_natCast, BitVec.ofNat_toNat, BitVec.setWidth_eq]

theorem ofNat_toNat (a : Word) : BitVec.ofNat 32 a.toNat = a := by
  rw [BitVec.ofNat_toNat, BitVec.setWidth_eq]

theorem add_eq_ofNat (a b : Word) : a + b = BitVec.ofNat 32 (a.toNat + b.toNat) := by
  rw [BitVec.ofNat_add, ofNat_toNat, ofNat_toNat]

theorem mul_eq_ofNat (a b : Word) : a * b = BitVec.ofNat 32 (a.toNat * b.toNat) := by
  rw [BitVec.ofNat_mul, ofNat_toNat, ofNat_toNat]

theorem sub_eq_ofInt (a b : Word) : a - b = BitVec.ofInt 32 (a.toNat - b.toNat) := by
  rw [ofInt_sub, ofInt_toNat, ofInt_toNat]

theorem div_eq_ofNat (a b : Word) : a / b = BitVec.ofNat 32 (a.toNat / b.toNat) := by
  rw [← BitVec.toNat_udiv, ofNat_toNat]

theorem mod_eq_ofNat (a b : Word) : a % b = BitVec.ofNat 32 (a.toNat % b.toNat) := by
  rw [← BitVec.toNat_umod, ofNat_toNat]

theorem shiftLeft_eq_ofNat (a : Word) (n : Nat) : a <<< n = BitVec.ofNat 32 (a.toNat * 2 ^ n) := by
  apply BitVec.eq_of_toNat_eq
  rw [BitVec.toNat_shiftLeft, BitVec.toNat_ofNat, Nat.shiftLeft_eq]

theorem shiftRight_eq_ofNat (a : Word) (n : Nat) : a >>> n = BitVec.ofNat 32 (a.toNat / 2 ^ n) := by
  rw [← Nat.shiftRight_eq_div_pow, ← BitVec.toNat_ushiftRight, ofNat_toNat]

theorem sshiftRight_eq_ofInt (a : Word) (n : Nat) : a.sshiftRight n = BitVec.ofInt 32 (a.toInt / 2 ^ n) := by
  rw [BitVec.sshiftRight, Int.shiftRight_eq_div_pow, Nat.cast_pow, Nat.cast_ofNat]

theorem ofInt_shiftLeft (x : Int) (n : Nat) : BitVec.ofInt 32 x <<< n = BitVec.ofInt 32 (x * 2 ^ n) := by
  have hone : (1#32 : Word).toNat = 1 := rfl
  rw [BitVec.ofInt_mul, BitVec.shiftLeft_eq_mul_twoPow, BitVec.twoPow_eq, shiftLeft_eq_ofNat, hone, Nat.one_mul,
    ← BitVec.ofInt_natCast, Nat.cast_pow, Nat.cast_ofNat]

/-! ### Immediates -/

theorem extendImm16_true (imm16 : BitVec 16) : extendImm16 imm16 true = BitVec.ofInt 32 imm16.toInt := rfl

theorem extendImm16_false (imm16 : BitVec 16) : extendImm16 imm16 false = BitVec.ofNat 32 imm16.toNat :=
  (BitVec.ofNat_toNat 32 imm16).symm

/-- Settles O20: both extensions are their defining conversions. -/
theorem immediatesExtend : Obligations.ImmediatesExtend := fun imm16 =>
  ⟨extendImm16_true imm16, extendImm16_false imm16⟩

theorem extendImm16_setWidth (imm16 : BitVec 16) (sx : Bool) :
    (extendImm16 imm16 sx).setWidth 16 = imm16 := by
  apply BitVec.eq_of_getLsbD_eq
  intro i hi
  have hlt : i < 32 := by omega
  cases sx <;> simp [extendImm16, BitVec.getElem_signExtend, hi, hlt]

/-- Either extension keeps the 16 bits, so only 0 extends to 0. -/
theorem extendImm16_eq_zero_iff (imm16 : BitVec 16) (sx : Bool) :
    extendImm16 imm16 sx = 0#32 ↔ imm16 = 0#16 := by
  constructor
  · intro h
    rw [← extendImm16_setWidth imm16 sx, h]
    rfl
  · rintro rfl
    cases sx <;> rfl

theorem extendImm16_zero (sx : Bool) : extendImm16 0#16 sx = 0#32 := (extendImm16_eq_zero_iff 0#16 sx).2 rfl

/-! ### Rotation, bit by bit -/

theorem rotateLeft_eq (a : Word) {n : Nat} (h : n < 32) : rotateLeft a n = a.rotateLeft n := by
  rw [rotateLeft, BitVec.rotateLeft_eq_rotateLeftAux_of_lt h, BitVec.rotateLeftAux]
  split
  next hzero => simp [hzero, BitVec.ushiftRight_eq_zero]
  next => rfl

theorem rotateRight_eq (a : Word) {n : Nat} (h : n < 32) : rotateRight a n = a.rotateRight n := by
  rw [rotateRight, BitVec.rotateRight_eq_rotateRightAux_of_lt h, BitVec.rotateRightAux]
  split
  next hzero => simp [hzero]
  next => rfl

/-- R120: bit `j` comes from `n` places below, around the word. -/
theorem getLsbD_rotateLeft (a : Word) {n j : Nat} (hn : n < 32) (hj : j < 32) :
    (rotateLeft a n).getLsbD j = a.getLsbD ((j + 32 - n) % 32) := by
  rw [rotateLeft_eq a hn, BitVec.getLsbD_rotateLeft, Nat.mod_eq_of_lt hn]
  by_cases hlt : j < n
  · have hplace : (j + 32 - n) % 32 = 32 - n + j := by omega
    simp [hlt, hplace]
  · have hplace : (j + 32 - n) % 32 = j - n := by omega
    simp [hlt, hj, hplace]

/-- R121: bit `j` comes from `n` places above, around the word. -/
theorem getLsbD_rotateRight (a : Word) {n j : Nat} (hn : n < 32) (hj : j < 32) :
    (rotateRight a n).getLsbD j = a.getLsbD ((j + n) % 32) := by
  rw [rotateRight_eq a hn, BitVec.getLsbD_rotateRight, Nat.mod_eq_of_lt hn]
  by_cases hlt : j < 32 - n
  · have hplace : (j + n) % 32 = n + j := by omega
    simp [hlt, hplace]
  · have hplace : (j + n) % 32 = j - (32 - n) := by omega
    simp [hlt, hj, hplace]

theorem rotateLeft_rotateRight (a : Word) {n : Nat} (h : n < 32) : rotateLeft (rotateRight a n) n = a := by
  apply BitVec.eq_of_getLsbD_eq
  intro j hj
  rw [getLsbD_rotateLeft _ h hj, getLsbD_rotateRight _ h (Nat.mod_lt _ (by decide))]
  congr 1
  omega

theorem rotateRight_rotateLeft (a : Word) {n : Nat} (h : n < 32) : rotateRight (rotateLeft a n) n = a := by
  apply BitVec.eq_of_getLsbD_eq
  intro j hj
  rw [getLsbD_rotateRight _ h hj, getLsbD_rotateLeft _ h (Nat.mod_lt _ (by decide))]
  congr 1
  omega

theorem shiftAmount_lt (b : Word) : shiftAmount b < 32 := Nat.mod_lt _ (by decide)

/-! ### The result of each operation (R101) -/

section Results

variable (a b d : Word)

theorem aluResult_add : aluResult .add a b d = some (BitVec.ofNat 32 (a.toNat + b.toNat)) :=
  congrArg some (add_eq_ofNat a b)

theorem aluResult_sub : aluResult .sub a b d = some (BitVec.ofInt 32 (a.toNat - b.toNat)) :=
  congrArg some (sub_eq_ofInt a b)

theorem aluResult_mul : aluResult .mul a b d = some (BitVec.ofNat 32 (a.toNat * b.toNat)) :=
  congrArg some (mul_eq_ofNat a b)

theorem aluResult_mac : aluResult .mac a b d = some (BitVec.ofNat 32 (d.toNat + a.toNat * b.toNat)) := by
  rw [aluResult, BitVec.ofNat_add, ofNat_toNat, mul_eq_ofNat]

/-- The immediate form of `mac` accumulates into its own factor (R103). -/
theorem aluResult_mac_self : aluResult .mac a b a = some (BitVec.ofNat 32 (a.toNat * (b.toNat + 1))) := by
  rw [aluResult_mac, Nat.mul_succ, Nat.add_comm]

theorem aluResult_lsl :
    aluResult .lsl a b d = some (BitVec.ofNat 32 (a.toNat * 2 ^ (b.toNat % 32))) :=
  congrArg some (shiftLeft_eq_ofNat a (shiftAmount b))

theorem aluResult_lsr :
    aluResult .lsr a b d = some (BitVec.ofNat 32 (a.toNat / 2 ^ (b.toNat % 32))) :=
  congrArg some (shiftRight_eq_ofNat a (shiftAmount b))

theorem aluResult_asr :
    aluResult .asr a b d = some (BitVec.ofInt 32 (a.toInt / 2 ^ (b.toNat % 32))) :=
  congrArg some (sshiftRight_eq_ofInt a (shiftAmount b))

theorem aluResult_div_of_zero : aluResult .div a 0#32 d = none := rfl

theorem aluResult_mod_of_zero : aluResult .mod a 0#32 d = none := rfl

variable {b}

theorem aluResult_div (h : b ≠ 0#32) : aluResult .div a b d = some (BitVec.ofNat 32 (a.toNat / b.toNat)) := by
  rw [aluResult, if_neg h, div_eq_ofNat]

theorem aluResult_mod (h : b ≠ 0#32) : aluResult .mod a b d = some (BitVec.ofNat 32 (a.toNat % b.toNat)) := by
  rw [aluResult, if_neg h, mod_eq_ofNat]

end Results

end Sys2Proof.Machine
end

section
/-! The ALU instructions (R101 to R122): each completes with the value of its operation, or raises
ARITHMETIC. -/

namespace Sys2Proof.Machine

/-! ### Both forms, for every operation -/

section Forms

variable {op : AluOp} {rd rs0 rs1 : RegNum} {imm16 : BitVec 16} {sx : Bool} {s : State} {v : Word}

theorem finishAlu_of_some {result : Option Word} (h : result = some v) :
    CompletesWriting (finishAlu rd result s) s rd v := by
  subst h
  exact completesWriting_retireWrite s rd rfl

theorem finishAlu_of_none {result : Option Word} (h : result = none) :
    AnswersRaising (finishAlu rd result s) s 0x10#8 0#24 := by
  subst h
  exact answersRaising_retireRaise s .arithmetic 0#24 rfl

theorem completesWriting_aluReg (h : aluResult op (s.reg rs0) (s.reg rs1) (s.reg rd) = some v) :
    CompletesWriting (exec (.aluReg op rd rs0 rs1) s) s rd v := by
  rw [exec_aluReg]
  exact finishAlu_of_some h

theorem completesWriting_aluImm (h : aluResult op (s.reg rd) (extendImm16 imm16 sx) (s.reg rd) = some v) :
    CompletesWriting (exec (.aluImm op rd imm16 sx) s) s rd v := by
  rw [exec_aluImm]
  exact finishAlu_of_some h

theorem answersRaising_aluReg (h : aluResult op (s.reg rs0) (s.reg rs1) (s.reg rd) = none) :
    AnswersRaising (exec (.aluReg op rd rs0 rs1) s) s 0x10#8 0#24 := by
  rw [exec_aluReg]
  exact finishAlu_of_none h

theorem answersRaising_aluImm (h : aluResult op (s.reg rd) (extendImm16 imm16 sx) (s.reg rd) = none) :
    AnswersRaising (exec (.aluImm op rd imm16 sx) s) s 0x10#8 0#24 := by
  rw [exec_aluImm]
  exact finishAlu_of_none h

end Forms

/-! ### The statements -/

/-- Settles O21; the immediate form's first operand is also its accumulator. -/
theorem addSubMulMacWriteResult : Obligations.AddSubMulMacWriteResult := fun _ _ _ _ _ _ =>
  ⟨completesWriting_aluReg (op := .add) (aluResult_add ..), completesWriting_aluImm (op := .add) (aluResult_add ..),
    completesWriting_aluReg (op := .sub) (aluResult_sub ..), completesWriting_aluImm (op := .sub) (aluResult_sub ..),
    completesWriting_aluReg (op := .mul) (aluResult_mul ..), completesWriting_aluImm (op := .mul) (aluResult_mul ..),
    completesWriting_aluReg (op := .mac) (aluResult_mac ..),
    completesWriting_aluImm (op := .mac) (aluResult_mac_self ..)⟩

/-- Settles O22: an immediate that is not 0 extends to a divisor that is not 0. -/
theorem divModWriteResult : Obligations.DivModWriteResult := by
  intro rd rs0 rs1 imm16 sx s
  refine ⟨fun hdivisor => ?register, fun himm => ?immediate⟩
  case register =>
    exact ⟨completesWriting_aluReg (op := .div) (aluResult_div _ _ hdivisor),
      completesWriting_aluReg (op := .mod) (aluResult_mod _ _ hdivisor)⟩
  case immediate =>
    have hdivisor : extendImm16 imm16 sx ≠ 0#32 := fun h => himm ((extendImm16_eq_zero_iff imm16 sx).1 h)
    exact ⟨completesWriting_aluImm (op := .div) (aluResult_div _ _ hdivisor),
      completesWriting_aluImm (op := .mod) (aluResult_mod _ _ hdivisor)⟩

/-- Settles O23: the operation has no result, whatever the destination. -/
theorem divModByZeroRaiseArithmetic : Obligations.DivModByZeroRaiseArithmetic := by
  intro rd rs0 rs1 sx s
  refine ⟨fun hdivisor => ⟨?_, ?_⟩, ?_, ?_⟩
  · exact answersRaising_aluReg (op := .div) (hdivisor ▸ aluResult_div_of_zero ..)
  · exact answersRaising_aluReg (op := .mod) (hdivisor ▸ aluResult_mod_of_zero ..)
  · exact answersRaising_aluImm (op := .div) (extendImm16_zero sx ▸ aluResult_div_of_zero ..)
  · exact answersRaising_aluImm (op := .mod) (extendImm16_zero sx ▸ aluResult_mod_of_zero ..)

/-- Settles O24: the operations are the words' own. -/
theorem bitwiseOpsWriteResult : Obligations.BitwiseOpsWriteResult := fun _ _ _ _ _ _ =>
  ⟨completesWriting_aluReg (op := .and) rfl, completesWriting_aluImm (op := .and) rfl,
    completesWriting_aluReg (op := .or) rfl, completesWriting_aluImm (op := .or) rfl,
    completesWriting_aluReg (op := .xor) rfl, completesWriting_aluImm (op := .xor) rfl⟩

/-- Settles O25: a shift by the amount modulo 32 is a product or a quotient by its power of two. -/
theorem shiftsWriteResult : Obligations.ShiftsWriteResult := fun _ _ _ _ _ _ =>
  ⟨completesWriting_aluReg (op := .lsl) (aluResult_lsl ..), completesWriting_aluImm (op := .lsl) (aluResult_lsl ..),
    completesWriting_aluReg (op := .lsr) (aluResult_lsr ..), completesWriting_aluImm (op := .lsr) (aluResult_lsr ..),
    completesWriting_aluReg (op := .asr) (aluResult_asr ..), completesWriting_aluImm (op := .asr) (aluResult_asr ..)⟩

/-- Settles O26: sign extension is the conversion through the two's complement value. -/
theorem signExtensionsWriteResult : Obligations.SignExtensionsWriteResult := fun _ _ _ _ _ _ =>
  ⟨completesWriting_aluReg (op := .sextb) rfl, completesWriting_aluImm (op := .sextb) rfl,
    completesWriting_aluReg (op := .sexth) rfl, completesWriting_aluImm (op := .sexth) rfl⟩

/-- Settles O27, bit by bit. -/
theorem rotatesWriteResult : Obligations.RotatesWriteResult := fun _ _ _ _ _ _ =>
  ⟨⟨_, completesWriting_aluReg (op := .rol) rfl, fun _ => getLsbD_rotateLeft _ (shiftAmount_lt _)⟩,
    ⟨_, completesWriting_aluImm (op := .rol) rfl, fun _ => getLsbD_rotateLeft _ (shiftAmount_lt _)⟩,
    ⟨_, completesWriting_aluReg (op := .ror) rfl, fun _ => getLsbD_rotateRight _ (shiftAmount_lt _)⟩,
    ⟨_, completesWriting_aluImm (op := .ror) rfl, fun _ => getLsbD_rotateRight _ (shiftAmount_lt _)⟩⟩

/-! ### Two instructions in sequence -/

/-- In a state that reads 0 in x[0], every register but the destination reads as before. -/
theorem RegWritten.reg_of_ne {s t : State} {rd r : RegNum} {v : Word} (h : RegWritten s t rd v)
    (hzero : s.reg 0#5 = 0#32) (hr : r ≠ rd) : t.reg r = s.reg r := by
  obtain ⟨hcleared, -, hother⟩ := h
  by_cases h0 : r = 0#5
  · rw [h0, hcleared, hzero]
  · exact hother r h0 hr

/-- An operation and its inverse by the same register, one instruction after the other. -/
theorem aluReg_undoes {op op' : AluOp} {f g : Word → Word → Word}
    (hop : ∀ a b d, aluResult op a b d = some (f a b)) (hop' : ∀ a b d, aluResult op' a b d = some (g a b))
    (hinverse : ∀ a b, g (f a b) b = a)
    {rd rs0 rs1 : RegNum} {s : State} (hrd : rd ≠ 0#5) (hne : rd ≠ rs1) (hzero : s.reg 0#5 = 0#32) :
    ∃ t u : State, exec (.aluReg op rd rs0 rs1) s = .next t ∧ exec (.aluReg op' rd rd rs1) t = .next u ∧
      u.reg rd = s.reg rs0 := by
  obtain ⟨t, ht, ⟨hregs, -⟩, -⟩ := completesWriting_aluReg (rd := rd) (hop (s.reg rs0) (s.reg rs1) (s.reg rd))
  obtain ⟨u, hu, ⟨⟨-, hwritten, -⟩, -⟩, -⟩ :=
    completesWriting_aluReg (rd := rd) (hop' (t.reg rd) (t.reg rs1) (t.reg rd))
  have hamount : t.reg rs1 = s.reg rs1 := hregs.reg_of_ne hzero hne.symm
  obtain ⟨-, hvalue, -⟩ := hregs
  exact ⟨t, u, ht, hu, by rw [hwritten hrd, hvalue hrd, hamount, hinverse]⟩

/-- Settles O28: the two rotations are inverse for one amount, and the first instruction keeps the amount
register. -/
theorem rotatesUndoEachOther : Obligations.RotatesUndoEachOther := fun _ _ _ _ hrd hne hzero =>
  ⟨aluReg_undoes (op := .ror) (op' := .rol) (fun _ _ _ => rfl) (fun _ _ _ => rfl)
      (fun a b => rotateLeft_rotateRight a (shiftAmount_lt b)) hrd hne hzero,
    aluReg_undoes (op := .rol) (op' := .ror) (fun _ _ _ => rfl) (fun _ _ _ => rfl)
      (fun a b => rotateRight_rotateLeft a (shiftAmount_lt b)) hrd hne hzero⟩

/-! ### Load-immediate -/

theorem loadImmValue_eq (imm16 : BitVec 16) (sx : Bool) (sh : Nat) :
    loadImmValue imm16 sx sh =
      if sx = true then BitVec.ofInt 32 (imm16.toInt * 2 ^ sh) else BitVec.ofNat 32 (imm16.toNat * 2 ^ sh) := by
  cases sx with
  | true => exact ofInt_shiftLeft imm16.toInt sh
  | false =>
    have hvalue : (extendImm16 imm16 false).toNat = imm16.toNat :=
      BitVec.toNat_setWidth_of_le (show 16 ≤ 32 by decide)
    rw [loadImmValue, shiftLeft_eq_ofNat, hvalue, if_neg Bool.false_ne_true]

theorem completesWriting_li (rd : RegNum) (imm16 : BitVec 16) (sx : Bool) (sh : Nat) (s : State) :
    CompletesWriting (exec (.li rd imm16 sx sh) s) s rd (loadImmValue imm16 sx sh) :=
  completesWriting_retireWrite s rd rfl

/-- Settles O58: `loadImmValue` is the statement's product. -/
theorem loadImmediateWritesShiftedValue : Obligations.LoadImmediateWritesShiftedValue := by
  intro rd imm16 sx sh s
  rw [← loadImmValue_eq]
  exact completesWriting_li rd imm16 sx sh s

/-- The upper half shifted up and the lower half make the word (R170). -/
theorem halves_or (v : Word) :
    loadImmValue (v.extractLsb' 16 16) false 16 ||| extendImm16 (v.extractLsb' 0 16) false = v := by
  apply BitVec.eq_of_getLsbD_eq
  intro i hi
  simp only [loadImmValue, extendImm16, Bool.false_eq_true, if_false, BitVec.getLsbD_or, BitVec.getLsbD_shiftLeft,
    BitVec.getLsbD_setWidth, BitVec.getLsbD_extractLsb', hi]
  by_cases hlow : i < 16
  · simp [hlow]
  · have hplace : 16 + (i - 16) = i := by omega
    have hhigh : i - 16 < 16 := by omega
    have hword : i - 16 < 32 := by omega
    simp [hlow, hhigh, hword, hplace]

/-- Settles O59: the `or` finds the upper half that the `li` wrote in x[rd]. -/
theorem twoInstructionsBuildAnyConstant : Obligations.TwoInstructionsBuildAnyConstant := by
  intro rd v s hrd
  obtain ⟨t, ht, ⟨⟨-, hupper, hkept⟩, -⟩, -⟩ := completesWriting_li rd (v.extractLsb' 16 16) false 16 s
  obtain ⟨u, hu, ⟨⟨-, hboth, hkept'⟩, -⟩, -⟩ :=
    completesWriting_aluImm (op := .or) (rd := rd) (imm16 := v.extractLsb' 0 16) (sx := false) (s := t) rfl
  refine ⟨t, u, ht, hu, ?_, fun r h0 hr => (hkept' r h0 hr).trans (hkept r h0 hr)⟩
  rw [hboth hrd, hupper hrd, halves_or]

end Sys2Proof.Machine
end

section
/-! Conditions (R123): set-if-condition (R171 to R177) and the branches (R124 to R141), each proved once for
the six predicates. -/

namespace Sys2Proof.Machine

/-- The predicates of the condition table, over the unsigned values compared (R123). -/
def CondRel : Cond → Nat → Nat → Prop
  | .eq, x, y => x = y
  | .ne, x, y => x ≠ y
  | .gt, x, y => x > y
  | .ge, x, y => x ≥ y
  | .lt, x, y => x < y
  | .le, x, y => x ≤ y

theorem condHolds_iff (c : Cond) (left right : Word) :
    condHolds c left right = true ↔ CondRel c left.toNat right.toNat := by
  cases c <;> simp [condHolds, CondRel, BitVec.toNat_inj]

/-! ### Set-if-condition -/

theorem completesWriting_setCond (c : Cond) {rd rs : RegNum} {imm16 : BitVec 16} {sx : Bool} {s : State}
    {_ : Decidable (CondRel c (s.reg rs).toNat (extendImm16 imm16 sx).toNat)} :
    CompletesWriting (exec (.setCond c rd rs imm16 sx) s) s rd
      (if CondRel c (s.reg rs).toNat (extendImm16 imm16 sx).toNat then 1#32 else 0#32) := by
  rw [exec_setCond]
  exact completesWriting_retireWrite s rd (if_congr (condHolds_iff ..) rfl rfl)

/-- Settles O60: `CondRel` of each predicate is the comparison the statement writes. -/
theorem setIfConditionWritesZeroOrOne : Obligations.SetIfConditionWritesZeroOrOne := by
  intro rd rs imm16 sx s left right
  exact ⟨completesWriting_setCond .eq, completesWriting_setCond .ne, completesWriting_setCond .gt,
    completesWriting_setCond .ge, completesWriting_setCond .lt, completesWriting_setCond .le⟩

/-! ### Branches -/

section Branches

variable {ra rb rt : RegNum} {imm16 : BitVec 16} {r l : Bool} {s : State} {target : Word}

theorem completesBranching_branchImm (c : Cond) {u : Bool} (h : branchImmTarget u imm16 s = target) :
    CompletesBranching (exec (.branchImm c u ra rb imm16 l) s) s
      (CondRel c (s.reg ra).toNat (s.reg rb).toNat) target l := by
  subst h
  rw [exec_branchImm]
  exact branchWhen_branches (condHolds_iff ..)

theorem completesBranching_branchReg (c : Cond) (h : branchRegTarget rt r s = target) :
    CompletesBranching (exec (.branchReg c ra rb rt r l) s) s
      (CondRel c (s.reg ra).toNat (s.reg rb).toNat) target l := by
  subst h
  rw [exec_branchReg]
  exact branchWhen_branches (condHolds_iff ..)

theorem branchImmTarget_signed (imm16 : BitVec 16) (s : State) :
    branchImmTarget false imm16 s = BitVec.ofInt 32 ((s.reg pcNum).toNat + imm16.toInt) := by
  rw [BitVec.ofInt_add, ofInt_toNat]
  rfl

theorem branchImmTarget_unsigned (imm16 : BitVec 16) (s : State) :
    branchImmTarget true imm16 s = BitVec.ofNat 32 ((s.reg pcNum).toNat + imm16.toNat) := by
  rw [BitVec.ofNat_add, ofNat_toNat, ← extendImm16_false]
  rfl

theorem branchRegTarget_eq (rt : RegNum) (r : Bool) (s : State) :
    branchRegTarget rt r s =
      if r = true then BitVec.ofNat 32 ((s.reg pcNum).toNat + (s.reg rt).toNat) else s.reg rt := by
  rw [← add_eq_ofNat]
  rfl

end Branches

/-- Settles O29: the six predicates share the target. -/
theorem signedOffsetBranches : Obligations.SignedOffsetBranches := by
  intro ra rb imm16 l s target
  have htarget := branchImmTarget_signed imm16 s
  exact ⟨completesBranching_branchImm .eq htarget, completesBranching_branchImm .ne htarget,
    completesBranching_branchImm .gt htarget, completesBranching_branchImm .ge htarget,
    completesBranching_branchImm .lt htarget, completesBranching_branchImm .le htarget⟩

/-- Settles O30, as O29 with the zero-extended offset. -/
theorem unsignedOffsetBranches : Obligations.UnsignedOffsetBranches := by
  intro ra rb imm16 l s target
  have htarget := branchImmTarget_unsigned imm16 s
  exact ⟨completesBranching_branchImm .eq htarget, completesBranching_branchImm .ne htarget,
    completesBranching_branchImm .gt htarget, completesBranching_branchImm .ge htarget,
    completesBranching_branchImm .lt htarget, completesBranching_branchImm .le htarget⟩

/-- Settles O31, as O29 with the target from a register. -/
theorem registerBranches : Obligations.RegisterBranches := by
  intro ra rb rt r l s target
  have htarget := branchRegTarget_eq rt r s
  exact ⟨completesBranching_branchReg .eq htarget, completesBranching_branchReg .ne htarget,
    completesBranching_branchReg .gt htarget, completesBranching_branchReg .ge htarget,
    completesBranching_branchReg .lt htarget, completesBranching_branchReg .le htarget⟩

end Sys2Proof.Machine
end

section
/-! The coprocessor exchange (R143 to R146), the return from an exception (R184), and the instructions that
only raise (R147 to R155). -/

namespace Sys2Proof.Machine

/-! ### The exchange -/

section Exchange

variable {creg cnum : Nat} {cell : CopCell} {s : State}

theorem execMtcr_of_some (h : s.resolve cnum creg = some cell) (rd : RegNum) :
    exec (.mtcr rd creg cnum) s = .next (s.writeCell cell (s.reg rd)).retirePlain := by
  have hexec : exec (.mtcr rd creg cnum) s = execMtcr rd creg cnum s := rfl
  rw [hexec, execMtcr, h]

theorem execMfcr_of_some (h : s.resolve cnum creg = some cell) (rd : RegNum) :
    exec (.mfcr rd creg cnum) s = .next (s.retireWrite rd (s.readCell cell)) := by
  have hexec : exec (.mfcr rd creg cnum) s = execMfcr rd creg cnum s := rfl
  rw [hexec, execMfcr, h]

theorem execMtcr_of_none (h : s.resolve cnum creg = none) (rd : RegNum) :
    exec (.mtcr rd creg cnum) s = .next (s.retireRaise .invalidCop 0#24) := by
  have hexec : exec (.mtcr rd creg cnum) s = execMtcr rd creg cnum s := rfl
  rw [hexec, execMtcr, h]

theorem execMfcr_of_none (h : s.resolve cnum creg = none) (rd : RegNum) :
    exec (.mfcr rd creg cnum) s = .next (s.retireRaise .invalidCop 0#24) := by
  have hexec : exec (.mfcr rd creg cnum) s = execMfcr rd creg cnum s := rfl
  rw [hexec, execMfcr, h]

end Exchange

@[simp] theorem State.retirePlain_readCell (s : State) (cell : CopCell) :
    s.retirePlain.readCell cell = s.readCell cell := by
  cases cell <;> simp [State.readCell, State.entry, State.map]

theorem State.writeCell_pipeKept (s : State) (cell : CopCell) (v : Word) :
    PipeKept s (s.writeCell cell v).retirePlain := by
  obtain ⟨h0, h1, h2⟩ := (s.writeCell cell v).retirePlain_pipe
  exact ⟨by rw [h0, State.writeCell_pipe0], by rw [h1, State.writeCell_pipe1], by rw [h2, State.writeCell_pipe2]⟩

/-- Settles O34: the end of the instruction touches no cell, so the laws of a cell write are what is left. -/
theorem mtcrStoresTheCell : Obligations.MtcrStoresTheCell := by
  intro rd creg cnum cell s h
  refine ⟨_, execMtcr_of_some h rd, ?stored, fun d hd => ?others, ⟨?zero, fun r hr => ?regs⟩,
    s.writeCell_pipeKept cell _, ?pl, ?devices, ?ports, fun pa => peekByte_congr ?_ pa⟩
  case stored => rw [State.retirePlain_readCell, State.readCell_writeCell]
  case others => rw [State.retirePlain_readCell, State.readCell_writeCell_other s cell d _ hd]
  case regs => rw [State.retirePlain_reg, if_neg hr, State.writeCell_reg]
  all_goals simp

theorem completesWriting_mfcr {creg cnum : Nat} {cell : CopCell} {s : State}
    (h : s.resolve cnum creg = some cell) (rd : RegNum) :
    CompletesWriting (exec (.mfcr rd creg cnum) s) s rd (s.readCell cell) := by
  rw [execMfcr_of_some h]
  exact completesWriting_retireWrite s rd rfl

/-- Settles O35: past the resolver the instruction is one register write. -/
theorem mfcrReadsTheCell : Obligations.MfcrReadsTheCell := fun rd _ _ _ _ h => completesWriting_mfcr h rd

/-- Settles O36: neither exchange gets past the resolver. -/
theorem missingCopRegisterRaises : Obligations.MissingCopRegisterRaises := by
  intro rd creg cnum s h
  rw [execMtcr_of_none h, execMfcr_of_none h]
  have hraise := answersRaising_retireRaise s .invalidCop 0#24 rfl
  exact ⟨hraise, hraise⟩

theorem decode_exceptionReturn : decode 0x77C04001#32 = .ok (.mfcr 31#5 4 0) := by decide

/-- Settles O37: the return is an `mfcr` with destination r31, whose one write is the PC. -/
theorem exceptionReturnRestoresOnlyThePc : Obligations.ExceptionReturnRestoresOnlyThePc := by
  refine ⟨decode_exceptionReturn, fun s => ?_⟩
  rw [executeWord_of_decode decode_exceptionReturn]
  obtain ⟨t, ht, ⟨⟨hzero, hpc, hregs⟩, hpipe, -, hcontrol⟩, hdevices⟩ :=
    completesWriting_mfcr (s := s) (cnum := 0) (creg := 4) (cell := .epc) rfl pcNum
  exact ⟨t, ht, hpc (by decide), hzero, hregs, hpipe rfl, hcontrol, hdevices⟩

/-! ### Instructions that only raise -/

/-- Settles O39: the table, row by row. -/
theorem causeCodeTable : Obligations.CauseCodeTable :=
  ⟨rfl, rfl, rfl, rfl, rfl, rfl, rfl, rfl, rfl, rfl, rfl, rfl, rfl, rfl, rfl, rfl, rfl, rfl⟩

theorem trapForm_raises (c : Cause) (imm24 : BitVec 24) (s : State) :
    AnswersRaising (trapForm c imm24 s) s (causeCode c) imm24 :=
  answersRaising_retireRaise s c imm24 rfl

/-- Settles O41: the three have one meaning, with their own causes. -/
theorem systemTrapsEnterTheDispatcher : Obligations.SystemTrapsEnterTheDispatcher := fun imm24 s =>
  ⟨trapForm_raises .syscall imm24 s, trapForm_raises .debug imm24 s, trapForm_raises .swe imm24 s⟩

/-- Settles O42: the six have one meaning. -/
theorem trapLevelOpsRaiseIllegal : Obligations.TrapLevelOpsRaiseIllegal := fun _ s =>
  ⟨illegalForm_raises s, illegalForm_raises s, illegalForm_raises s, illegalForm_raises s, illegalForm_raises s,
    illegalForm_raises s⟩

end Sys2Proof.Machine
end

section
/-! What a translation reads (R48), the bytes a RAM answers (R69, R73), the port dispatcher (R66), and the
effective address (R158). -/

namespace Sys2Proof.Machine

/-! ### The active table -/

theorem State.map_ext {s t : State} {m : BitVec 2} (h : ∀ i : Fin 32, t.entry m i = s.entry m i) :
    t.map m = s.map m := by
  apply Vector.ext
  intro i hi
  exact h ⟨i, hi⟩

/-- Settles O46: a table is its entries. -/
theorem onlyTheActiveTableIsConsulted : Obligations.OnlyTheActiveTableIsConsulted := by
  intro s t hmmucr hentries
  have hactive : t.activeMap = s.activeMap := by
    rw [State.activeMap, hmmucr]
    exact State.map_ext hentries
  exact State.translate_congr hmmucr hactive

/-! ### A RAM's answer -/

theorem zeroAppend_toNat (m : Nat) {n : Nat} (x : BitVec n) : (0#m ++ x).toNat = x.toNat := by
  simp [BitVec.toNat_append]

theorem ramRead_byte_lt (size : Nat) (m : Memory) (a : Nat) : (ramRead size m a .byte).toNat < 2 ^ 8 := by
  have hvalue : (ramRead size m a .byte).toNat = (ramByte size m a).toNat := zeroAppend_toNat 24 _
  rw [hvalue]
  exact BitVec.isLt _

theorem ramRead_short_lt (size : Nat) (m : Memory) (a : Nat) : (ramRead size m a .short).toNat < 2 ^ 16 := by
  have hvalue : (ramRead size m a .short).toNat = (ramByte size m (a + 1) ++ ramByte size m a).toNat := by
    rw [ramRead, BitVec.toNat_append, zeroAppend_toNat, ← BitVec.toNat_append]
  rw [hvalue]
  exact BitVec.isLt _

/-- A byte or short answer has no bit above its width, so the bus's mask keeps it (R63). -/
theorem sizeMask_ramRead (size : Nat) (m : Memory) (a : Nat) (sz : SizeCode) :
    sizeMask (ramRead size m a sz) sz = ramRead size m a sz := by
  cases sz with
  | byte => rw [sizeMask_byte, Nat.mod_eq_of_lt (ramRead_byte_lt size m a), ofNat_toNat]
  | short => rw [sizeMask_short, Nat.mod_eq_of_lt (ramRead_short_lt size m a), ofNat_toNat]
  | long => rfl
  | execute => rfl

/-- The one call of a read that a RAM owns changes nothing (R62, R63, D20). -/
theorem State.busRead_ram {s : State} {pa : Word} {d : MemDevice} {cells : Memory}
    (howner : ownerOf s.devices pa = some d) (hram : d.body = .ram cells) (sz : SizeCode) :
    s.busRead pa sz = (ramRead d.size cells (pa.toNat - d.start) sz, s) := by
  obtain ⟨pre, post, hdevices, -, -, hread⟩ := devicesRead_owned howner sz
  rw [MemDevice.read_ram hram, MemDevice.localAddr_toNat, sizeMask_ramRead, ← hdevices] at hread
  rw [State.busRead, hread]
  rfl

/-- Settles O50: `ramRead` is the statement's concatenation, size by size. -/
theorem ramReadsAreLittleEndian : Obligations.RamReadsAreLittleEndian := by
  intro s pa d cells howner hram byteAt
  have hread := State.busRead_ram howner hram
  exact ⟨congrArg Prod.fst (hread .byte), congrArg Prod.fst (hread .short), congrArg Prod.fst (hread .long),
    congrArg Prod.fst (hread .execute), fun sz => congrArg Prod.snd (hread sz)⟩

/-! ### Ports -/

theorem PortDevice.owns_eq_false_iff (d : PortDevice) (port : BitVec 16) :
    d.owns port = false ↔ port ∉ d.ports := by
  simp [PortDevice.owns]

theorem PortDevice.owns_eq_true_iff (d : PortDevice) (port : BitVec 16) :
    d.owns port = true ↔ port ∈ d.ports := by
  simp [PortDevice.owns]

/-- Settles O51: membership is ownership, so the laws of an unowned port and of the first owner apply. -/
theorem portsDispatchByMembership : Obligations.PortsDispatchByMembership := by
  intro s port sz v
  refine ⟨fun hunowned => ?unowned, fun before after d hports hbefore hmem => ?owned⟩
  case unowned =>
    obtain ⟨hread, hwrite⟩ :=
      ports_unowned (fun d hd => (d.owns_eq_false_iff port).2 (hunowned d hd)) sz v
    rw [State.portRead, State.portWrite, hread, hwrite]
    exact ⟨rfl, rfl⟩
  case owned =>
    have hfirst (b) (hb : b ∈ before) := (PortDevice.owns_eq_false_iff b port).2 (hbefore b hb)
    have howns := (d.owns_eq_true_iff port).2 hmem
    rw [State.portRead, State.portWrite, hports, portsRead_append before after d port sz hfirst howns,
      portsWrite_append before after d port sz v hfirst howns]
    exact ⟨by cases sz <;> rfl, rfl⟩

/-! ### The effective address -/

theorem shiftLeft_toNat (a : Word) (n : Nat) : (a <<< n).toNat = a.toNat * 2 ^ n % 2 ^ 32 := by
  rw [BitVec.toNat_shiftLeft, Nat.shiftLeft_eq]

theorem imm10_toNat (imm10 : BitVec 10) : (imm10.setWidth 32).toNat = imm10.toNat :=
  BitVec.toNat_setWidth_of_le (show 10 ≤ 32 by decide)

/-- Settles O52: a sum or difference of words, whose second term is the scaled or shifted index or the
offset. -/
theorem effectiveAddressModes : Obligations.EffectiveAddressModes := by
  intro s rb ri sc imm10
  refine ⟨?scaledAdd, ?scaledSub, ?shiftedAdd, ?shiftedSub, ?immAdd, ?immSub⟩
  case scaledAdd => rw [BitVec.ofNat_add, BitVec.ofNat_mul, ofNat_toNat, ofNat_toNat, State.effectiveAddress]
  case scaledSub =>
    rw [ofInt_sub, BitVec.ofInt_mul, ofInt_toNat, ofInt_toNat, BitVec.ofInt_natCast, State.effectiveAddress]
  case shiftedAdd => rw [State.effectiveAddress, add_eq_ofNat, shiftLeft_toNat]
  case shiftedSub => rw [State.effectiveAddress, sub_eq_ofInt, shiftLeft_toNat]
  case immAdd => rw [State.effectiveAddress, add_eq_ofNat, imm10_toNat]
  case immSub => rw [State.effectiveAddress, sub_eq_ofInt, imm10_toNat]

end Sys2Proof.Machine
end

section
/-! Loads, stores and load-effective-address (R157 to R168), each proved once for the three sizes; and a load
after a store in one RAM (R75). -/

namespace Sys2Proof.Machine

/-! ### The three forms, by the answer of the translation -/

section Forms

variable {sz : SizeCode} {rd : RegNum} {addr : AddrMode} {s : State} {pa : Word} {c : Cause}

theorem loadForm_of_ok (h : s.translate (s.effectiveAddress addr) .read sz = .ok pa) :
    loadForm sz rd addr s = .next ((s.busRead pa sz).2.retireWrite rd (s.busRead pa sz).1) := by
  rw [loadForm, h]

theorem loadForm_of_error (h : s.translate (s.effectiveAddress addr) .read sz = .error c) :
    loadForm sz rd addr s = .next (s.retireRaise c 0#24) := by
  rw [loadForm, h]

theorem storeForm_of_ok (h : s.translate (s.effectiveAddress addr) .write sz = .ok pa) :
    storeForm sz rd addr s = .next (s.busWrite pa sz (s.reg rd)).retirePlain := by
  rw [storeForm, h]

theorem storeForm_of_error (h : s.translate (s.effectiveAddress addr) .write sz = .error c) :
    storeForm sz rd addr s = .next (s.retireRaise c 0#24) := by
  rw [storeForm, h]

/-- The core after the device read is the core before it, so the register write is the only one (R159). -/
theorem loadForm_completes_of_ok (h : s.translate (s.effectiveAddress addr) .read sz = .ok pa) :
    CompletesLoading (loadForm sz rd addr s) s rd pa sz := by
  refine ⟨_, loadForm_of_ok h, (s.busRead pa sz).2.retireWrite_writes rd _, by simp, by simp, fun q => ?_⟩
  rw [peekByte_congr (s := (s.busRead pa sz).2) (by simp), peekByte_busRead]

theorem State.busWrite_attachment (s : State) (pa : Word) (sz : SizeCode) (v : Word) :
    (s.busWrite pa sz v).attachment = s.attachment := by
  simp [State.attachment_eq, devicesWrite_shape]

/-- The bytes of the access are the bus's laws of a write, and the end of the instruction touches no device
(R159, R165 to R167). -/
theorem storeForm_completes_of_ok (hwf : s.wf = true)
    (h : s.translate (s.effectiveAddress addr) .write sz = .ok pa) :
    CompletesStoring (storeForm sz rd addr s) s pa sz (accessBytes sz) (s.reg rd) := by
  have hpeek (q : Word) : (s.busWrite pa sz (s.reg rd)).retirePlain.peekByte q =
      (s.busWrite pa sz (s.reg rd)).peekByte q := peekByte_congr (by simp) q
  refine ⟨_, storeForm_of_ok h, ⟨by simp, fun r hr => by simp [hr]⟩,
    (s.busWrite pa sz (s.reg rd)).retirePlain_pipe, by simp [ControlKept], by simp, by simp, ?attachment,
    fun q hq => ?outside, fun d cells howner hram q k hk hq hq' => ?inside⟩
  case attachment =>
    rw [← s.busWrite_attachment pa sz (s.reg rd)]
    simp [State.attachment_eq]
  case outside => rw [hpeek, peekByte_busWrite_outside hwf pa _ sz q hq]
  case inside => rw [hpeek, peekByte_busWrite_inside hwf howner hram hk hq hq']

theorem loadForm_raises (h : s.translate (s.effectiveAddress addr) .read sz = .error c) :
    AnswersRaising (loadForm sz rd addr s) s (causeCode c) 0#24 := by
  rw [loadForm_of_error h]
  exact answersRaising_retireRaise s c 0#24 rfl

theorem storeForm_raises (h : s.translate (s.effectiveAddress addr) .write sz = .error c) :
    AnswersRaising (storeForm sz rd addr s) s (causeCode c) 0#24 := by
  rw [storeForm_of_error h]
  exact answersRaising_retireRaise s c 0#24 rfl

theorem leaForm_completes : CompletesWriting (leaForm rd addr s) s rd (s.effectiveAddress addr) :=
  completesWriting_retireWrite s rd rfl

end Forms

/-- Settles O53: the three loads are one form at three sizes. -/
theorem loadsWriteTheBusValue : Obligations.LoadsWriteTheBusValue := fun _ _ _ _ =>
  ⟨loadForm_completes_of_ok, loadForm_completes_of_ok, loadForm_completes_of_ok⟩

/-- Settles O54: the three stores are one form at three sizes. -/
theorem storesWriteTheirBytes : Obligations.StoresWriteTheirBytes := fun _ _ _ _ hwf =>
  ⟨storeForm_completes_of_ok hwf, storeForm_completes_of_ok hwf, storeForm_completes_of_ok hwf⟩

/-- Settles O55: the translation's fault ends either form before its bus access. -/
theorem loadAndStoreFaultsRaise : Obligations.LoadAndStoreFaultsRaise := fun _ _ _ _ =>
  ⟨loadForm_raises, loadForm_raises, loadForm_raises, storeForm_raises, storeForm_raises, storeForm_raises⟩

/-- Settles O57: the size has no part in the address. -/
theorem leaWritesTheAddress : Obligations.LeaWritesTheAddress := fun _ _ _ =>
  ⟨leaForm_completes, leaForm_completes, leaForm_completes⟩

/-! ### A load after a store -/

theorem State.effectiveAddress_congr {s t : State} (h : ∀ r : RegNum, t.reg r = s.reg r) (addr : AddrMode) :
    t.effectiveAddress addr = s.effectiveAddress addr := by
  cases addr <;> simp only [State.effectiveAddress, h]

/-- After a write its owner still owns the address, in the state its call left it (R65). -/
theorem ownerOf_devicesWrite {ds : List MemDevice} {pa : Word} {d : MemDevice} (h : ownerOf ds pa = some d)
    (sz : SizeCode) (v : Word) :
    ownerOf (devicesWrite ds pa sz v) pa = some (d.write (d.localAddr pa) (sizeMask v sz) sz) := by
  obtain ⟨pre, post, -, hpre, hd, hwrite⟩ := devicesWrite_owned h sz v
  have hnone : pre.find? (fun e => e.owns pa) = none := by
    rw [List.find?_eq_none]
    exact fun e he => by simp [hpre e he]
  rw [hwrite, ownerOf, List.find?_append, hnone, Option.none_or, List.find?_cons, MemDevice.write_owns, hd]

theorem wf_of_ownerOf {s : State} (hwf : s.wf = true) {pa : Word} {d : MemDevice}
    (h : ownerOf s.devices pa = some d) : d.wf = true :=
  List.all_eq_true.1 hwf d (List.mem_of_find?_eq_some h)

/-- The four bytes of a word, lowest last, are the word (R69). -/
theorem bytes_append (v : Word) : byteOf v 3 ++ byteOf v 2 ++ byteOf v 1 ++ byteOf v 0 = v := by
  have h21 : byteOf v 3 ++ byteOf v 2 = v.extractLsb' 16 16 :=
    BitVec.extractLsb'_append_extractLsb'_eq_extractLsb' rfl
  have h1 : v.extractLsb' 16 16 ++ byteOf v 1 = v.extractLsb' 8 24 :=
    BitVec.extractLsb'_append_extractLsb'_eq_extractLsb' rfl
  have h0 : v.extractLsb' 8 24 ++ byteOf v 0 = v.extractLsb' 0 32 :=
    BitVec.extractLsb'_append_extractLsb'_eq_extractLsb' rfl
  rw [h21, h1, h0, BitVec.extractLsb'_eq_self]

/-- What a RAM answers at the address of a long that has been written and lies inside it (R69, D20). -/
theorem ramRead_ramWrite {m : Memory} (hwf : Memory.wf m = true) {size a : Nat} (hinside : a + 3 < size)
    (v : Word) : ramRead size (ramWrite size m a v .long) a .long = v := by
  have hbyte (k : Nat) (hk : k < 4) : ramByte size (ramWrite size m a v .long) (a + k) = byteOf v k := by
    rw [ramByte_write hwf, if_pos ⟨by omega, by rw [accessBytes]; omega, by omega⟩, Nat.add_sub_cancel_left]
  have hlowest : ramByte size (ramWrite size m a v .long) a = byteOf v 0 := hbyte 0 (by decide)
  rw [ramRead, hbyte 3 (by decide), hbyte 2 (by decide), hbyte 1 (by decide), hlowest]
  exact bytes_append v

/-- The bus reads back a long it wrote inside one RAM (R75). -/
theorem State.busRead_busWrite {s : State} {pa : Word} {d : MemDevice} {cells : Memory} (hwf : s.wf = true)
    (howner : ownerOf s.devices pa = some d) (hram : d.body = .ram cells) (hinside : pa.toNat + 3 < d.stop)
    (v : Word) : ((s.busWrite pa .long v).busRead pa .long).1 = v := by
  have howns : d.owns pa = true := by simpa using List.find?_some howner
  have hstart := ((d.owns_iff pa).1 howns).1
  have howner' := ownerOf_devicesWrite howner .long v
  rw [MemDevice.write_ram hram, MemDevice.localAddr_toNat] at howner'
  have hwf' := MemDevice.ram_wf hram (wf_of_ownerOf hwf howner)
  rw [State.busRead_ram (s := s.busWrite pa .long v) howner' rfl]
  exact ramRead_ramWrite hwf' (show pa.toNat - d.start + 3 < d.stop - d.start by omega) v

/-- Settles O56: the store leaves every register, MMUCR and the tables as they were, so the load translates
the same address to the same place. -/
theorem loadAfterStoreGivesTheValue : Obligations.LoadAfterStoreGivesTheValue := by
  intro rd rt addr s pa d cells hwf hzero hrt hwrite hread howner hram hinside
  have hstored := State.busRead_busWrite hwf howner hram hinside (s.reg rd)
  generalize ht : (s.busWrite pa .long (s.reg rd)).retirePlain = t
  have hregs (r : RegNum) : t.reg r = s.reg r := by
    by_cases h0 : r = 0#5 <;> simp [← ht, h0, hzero]
  have htranslate : t.translate (t.effectiveAddress addr) .read .long = .ok pa := by
    rw [State.effectiveAddress_congr hregs, ← hread]
    exact State.translate_congr (by simp [← ht]) (by simp [← ht, State.activeMap, State.map]) _ _ _
  have hvalue : (t.busRead pa .long).1 = s.reg rd := by
    rw [← hstored]
    simp [← ht]
  obtain ⟨u, hu, ⟨⟨-, hloaded, -⟩, -⟩, -⟩ := loadForm_completes_of_ok (rd := rt) htranslate
  exact ⟨t, u, ht ▸ storeForm_of_ok hwrite, hu, (hloaded hrt).trans hvalue⟩

end Sys2Proof.Machine
end

section
/-! Flow transfers (R13, R32, R199): how every instruction but `mtcr` leaves the slots and the cells that only
`mtcr` writes, read off the ways to complete of Safety.lean; and what executes next. -/

namespace Sys2Proof.Machine

/-! ### The slots and the stored cells after an instruction -/

/-- CR0, CR1, HANDLER and the mapping tables are unchanged: the cells that only `mtcr` writes (R39, R46). -/
def StoredCellsKept (s t : State) : Prop :=
  t.cr0 = s.cr0 ∧ t.cr1 = s.cr1 ∧ t.handler = s.handler ∧ t.maps = s.maps

theorem ControlKept.storedCells {s t : State} (h : ControlKept s t) : StoredCellsKept s t := by
  obtain ⟨-, hcr0, hcr1, -, hhandler, -, -, hmaps⟩ := h
  exact ⟨hcr0, hcr1, hhandler, hmaps⟩

/-- The outcome is a next state with the stored cells as before, and with the slots as a flow transfer leaves
them where `flow` holds, unchanged where it does not (R32). -/
def EndsWith (o : Host.Outcome State Fault Refusal) (s : State) (flow : Prop) : Prop :=
  ∃ t, o = .next t ∧ StoredCellsKept s t ∧ (flow → PipeAfterFlow s t) ∧ (¬flow → PipeKept s t)

section EndsWith

variable {o : Host.Outcome State Fault Refusal} {s : State} {flow : Prop}

theorem WritesReg.endsWith {t : State} {rd : RegNum} {v : Word} (h : WritesReg s t rd v) :
    EndsWith (.next t) s (rd = pcNum) := by
  obtain ⟨-, hflow, hplain, hcontrol⟩ := h
  exact ⟨t, rfl, hcontrol.storedCells, hflow, hplain⟩

theorem CompletesWriting.endsWith {rd : RegNum} {v : Word} (h : CompletesWriting o s rd v) :
    EndsWith o s (rd = pcNum) := by
  obtain ⟨t, rfl, hwrites, -⟩ := h
  exact hwrites.endsWith

theorem CompletesLoading.endsWith {rd : RegNum} {pa : Word} {sz : SizeCode} (h : CompletesLoading o s rd pa sz) :
    EndsWith o s (rd = pcNum) := by
  obtain ⟨t, rfl, hwrites, -⟩ := h
  exact hwrites.endsWith

theorem AnswersRaising.endsWith {code : BitVec 8} {imm24 : BitVec 24} (h : AnswersRaising o s code imm24)
    (hflow : flow) : EndsWith o s flow := by
  obtain ⟨t, rfl, ⟨-, -, -, -, -, hpipe, hcr0, hcr1, hhandler, hmaps, -⟩, -⟩ := h
  exact ⟨t, rfl, ⟨hcr0, hcr1, hhandler, hmaps⟩, fun _ => hpipe, absurd hflow⟩

theorem CompletesBranching.endsWith {taken : Prop} {target : Word} {l : Bool}
    (h : CompletesBranching o s taken target l) : EndsWith o s taken := by
  obtain ⟨t, rfl, hcontrol, -, -, htaken, huntaken⟩ := h
  refine ⟨t, rfl, hcontrol.storedCells, fun h => ?_, fun h => (huntaken h).2⟩
  obtain ⟨-, -, -, hpipe⟩ := htaken h
  exact hpipe

theorem EndsWith.congr {flow' : Prop} (h : EndsWith o s flow) (hiff : flow' ↔ flow) : EndsWith o s flow' :=
  propext hiff ▸ h

theorem finishAlu_endsWith (rd : RegNum) (result : Option Word) :
    EndsWith (finishAlu rd result s) s (rd = pcNum ∨ result = none) := by
  cases result with
  | some v => exact (finishAlu_of_some rfl).endsWith.congr (by simp)
  | none => exact (finishAlu_of_none rfl).endsWith (.inr rfl)

theorem loadForm_endsWith (sz : SizeCode) (rd : RegNum) (addr : AddrMode) :
    EndsWith (loadForm sz rd addr s) s
      (rd = pcNum ∨ ∃ c, s.translate (s.effectiveAddress addr) .read sz = .error c) := by
  cases h : s.translate (s.effectiveAddress addr) .read sz with
  | ok pa => exact (loadForm_completes_of_ok h).endsWith.congr (by simp)
  | error c => exact (loadForm_raises h).endsWith (.inr ⟨c, rfl⟩)

theorem storeForm_endsWith (sz : SizeCode) (rd : RegNum) (addr : AddrMode) :
    EndsWith (storeForm sz rd addr s) s (∃ c, s.translate (s.effectiveAddress addr) .write sz = .error c) := by
  cases h : s.translate (s.effectiveAddress addr) .write sz with
  | ok pa =>
    refine ⟨_, storeForm_of_ok h, by simp [StoredCellsKept], fun ⟨c, hc⟩ => absurd hc nofun, fun _ => ?_⟩
    exact (s.busWrite pa sz (s.reg rd)).retirePlain_pipe
  | error c => exact (storeForm_raises h).endsWith ⟨c, rfl⟩

theorem execMfcr_endsWith (rd : RegNum) (creg cnum : Nat) :
    EndsWith (exec (.mfcr rd creg cnum) s) s (rd = pcNum ∨ s.resolve cnum creg = none) := by
  cases h : s.resolve cnum creg with
  | some cell => exact (completesWriting_mfcr h rd).endsWith.congr (by simp)
  | none => exact (missingCopRegisterRaises rd creg cnum s h).2.endsWith (.inr rfl)

end EndsWith

/-! ### When an instruction of a format is a flow transfer -/

section FlowTransfer

variable (s : State)

theorem flowTransfer_aluReg (op : AluOp) (rd rs0 rs1 : RegNum) :
    FlowTransfer s (.aluReg op rd rs0 rs1) ↔
      rd = pcNum ∨ aluResult op (s.reg rs0) (s.reg rs1) (s.reg rd) = none := by
  cases op <;> simp [Instr.aluReg, FlowTransfer, aluResult]

theorem flowTransfer_aluImm (op : AluOp) (rd : RegNum) (imm16 : BitVec 16) (sx : Bool) :
    FlowTransfer s (.aluImm op rd imm16 sx) ↔
      rd = pcNum ∨ aluResult op (s.reg rd) (extendImm16 imm16 sx) (s.reg rd) = none := by
  cases op <;> simp [Instr.aluImm, FlowTransfer, aluResult, extendImm16_eq_zero_iff]

theorem flowTransfer_branchImm (c : Cond) (u : Bool) (ra rb : RegNum) (imm16 : BitVec 16) (l : Bool) :
    FlowTransfer s (.branchImm c u ra rb imm16 l) ↔ CondRel c (s.reg ra).toNat (s.reg rb).toNat := by
  cases c <;> cases u <;> exact Iff.rfl

theorem flowTransfer_branchReg (c : Cond) (ra rb rt : RegNum) (r l : Bool) :
    FlowTransfer s (.branchReg c ra rb rt r l) ↔ CondRel c (s.reg ra).toNat (s.reg rb).toNat := by
  cases c <;> exact Iff.rfl

theorem flowTransfer_setCond (c : Cond) (rd rs : RegNum) (imm16 : BitVec 16) (sx : Bool) :
    FlowTransfer s (.setCond c rd rs imm16 sx) ↔ rd = pcNum := by
  cases c <;> exact Iff.rfl

/-- Every instruction but `mtcr` keeps the stored cells, and leaves the slots as its being a flow transfer
says. -/
theorem exec_endsWith {i : Instr} (h : ∀ (rd : RegNum) (creg cnum : Nat), i ≠ .mtcr rd creg cnum) :
    EndsWith (exec i s) s (FlowTransfer s i) := by
  induction i using Instr.byFormat with
  | aluReg op rd rs0 rs1 =>
    rw [exec_aluReg]
    exact (finishAlu_endsWith rd _).congr (flowTransfer_aluReg s op rd rs0 rs1)
  | aluImm op rd imm16 sx =>
    rw [exec_aluImm]
    exact (finishAlu_endsWith rd _).congr (flowTransfer_aluImm s op rd imm16 sx)
  | branchImm c u ra rb imm16 l =>
    exact (completesBranching_branchImm c rfl).endsWith.congr (flowTransfer_branchImm s c u ra rb imm16 l)
  | branchReg c ra rb rt r l =>
    exact (completesBranching_branchReg c rfl).endsWith.congr (flowTransfer_branchReg s c ra rb rt r l)
  | setCond c rd rs imm16 sx =>
    rw [exec_setCond]
    exact (s.retireWrite_writes rd _).endsWith.congr (flowTransfer_setCond s c rd rs imm16 sx)
  | li rd imm16 sx sh => exact (completesWriting_li rd imm16 sx sh s).endsWith
  | mtcr rd creg cnum => exact absurd rfl (h rd creg cnum)
  | mfcr rd creg cnum => exact execMfcr_endsWith rd creg cnum
  | ldB rd addr | ldH rd addr | ldW rd addr => exact loadForm_endsWith _ rd addr
  | stB rd addr | stH rd addr | stW rd addr => exact storeForm_endsWith _ rd addr
  | leaB rd addr | leaH rd addr | leaW rd addr => exact leaForm_completes.endsWith
  | syscall imm24 | debug imm24 | swe imm24 => exact (trapForm_raises _ imm24 s).endsWith trivial
  | tpl0 | tpl1 | tpl2 | tpl3 | cpi0 | cpi1 => exact (illegalForm_raises s).endsWith trivial

end FlowTransfer

/-- Settles O12: the stored cells are part of how every other instruction ends. -/
theorem onlyMtcrWritesControlCells : Obligations.OnlyMtcrWritesControlCells := by
  intro i s t hnotMtcr hexec
  obtain ⟨t', hnext, hcells, -⟩ := exec_endsWith s hnotMtcr
  obtain rfl : t' = t := Host.Outcome.next.inj (hnext.symm.trans hexec)
  exact hcells

/-! ### The slots after every instruction and every word -/

theorem execMtcr_pipe (rd : RegNum) (creg cnum : Nat) (s : State) :
    ∃ t, exec (.mtcr rd creg cnum) s = .next t ∧ (s.resolve cnum creg = none → PipeAfterFlow s t) ∧
      (s.resolve cnum creg ≠ none → PipeKept s t) := by
  cases h : s.resolve cnum creg with
  | some cell => exact ⟨_, execMtcr_of_some h rd, nofun, fun _ => s.writeCell_pipeKept cell _⟩
  | none =>
    obtain ⟨t, ht, -, hflow, -⟩ := (missingCopRegisterRaises rd creg cnum s h).1.endsWith trivial
    exact ⟨t, ht, fun _ => hflow trivial, absurd rfl⟩

/-- Every instruction answers a next state, its slots by whether it is a flow transfer (R32, R199). -/
theorem exec_pipe (i : Instr) (s : State) :
    ∃ t, exec i s = .next t ∧ (FlowTransfer s i → PipeAfterFlow s t) ∧ (¬FlowTransfer s i → PipeKept s t) := by
  by_cases hmtcr : ∃ (rd : RegNum) (creg cnum : Nat), i = .mtcr rd creg cnum
  · obtain ⟨rd, creg, cnum, rfl⟩ := hmtcr
    exact execMtcr_pipe rd creg cnum s
  · obtain ⟨t, ht, -, hpipe⟩ := exec_endsWith (i := i) s fun rd creg cnum h => hmtcr ⟨rd, creg, cnum, h⟩
    exact ⟨t, ht, hpipe⟩

theorem TransfersFlow.pipeAfterFlow {s : State} {o : Host.Outcome State Fault Refusal} (h : TransfersFlow s o) :
    ∃ t, o = .next t ∧ PipeAfterFlow s t := by
  rcases h with ⟨i, hflow, rfl⟩ | ⟨w, r, hreserved, rfl⟩
  · obtain ⟨t, ht, hpipe, -⟩ := exec_pipe i s
    exact ⟨t, ht, hpipe hflow⟩
  · have hraise := illegalForm_raises s
    rw [← executeWord_of_rejected (w := w) (by simp [hreserved]) s] at hraise
    obtain ⟨t, ht, -, hpipe, -⟩ := hraise.endsWith trivial
    exact ⟨t, ht, hpipe trivial⟩

theorem PipeAfterFlow.slots {s t : State} (h : PipeAfterFlow s t) :
    t.pipe1 = (if s.cr0.getLsbD 3 = true then 0#32 else s.pipe1) ∧
      t.pipe0 = if s.cr0.getLsbD 3 = true then 0#32 else s.pipe0 := by
  obtain ⟨hflushed, hkept⟩ := h
  by_cases hfoft : s.cr0.getLsbD 3 = true
  · obtain ⟨h0, h1, -⟩ := hflushed hfoft
    rw [if_pos hfoft, if_pos hfoft]
    exact ⟨h1, h0⟩
  · obtain ⟨h0, h1, -⟩ := hkept (Bool.eq_false_of_not_eq_true hfoft)
    rw [if_neg hfoft, if_neg hfoft]
    exact ⟨h1, h0⟩

/-- Settles O32: the next cycle shifts the slots that the transfer left and executes what was in slot 1. -/
theorem delaySlotsFollowFoft : Obligations.DelaySlotsFollowFoft := by
  refine ⟨fun s o htransfers => ?transfer, fun s i hnot => ?noTransfer⟩
  case transfer =>
    obtain ⟨t, ht, hpipe⟩ := htransfers.pipeAfterFlow
    obtain ⟨hslot1, hslot0⟩ := hpipe.slots
    refine ⟨t, ht, hpipe, fun pa hok => ⟨t.fetchCycle, ?_, ?_, ?_⟩⟩
    · rw [step_of_ok hok, hslot1]
    · rw [State.fetchCycle_of_ok hok, ← hslot0]
      rfl
    · rw [State.fetchCycle_of_ok hok]
      rfl
  case noTransfer =>
    obtain ⟨t, ht, -, hkept⟩ := exec_pipe i s
    exact ⟨t, ht, hkept hnot⟩

theorem PipeKept.trans {s t u : State} (h : PipeKept s t) (h' : PipeKept t u) : PipeKept s u := by
  obtain ⟨h0, h1, h2⟩ := h
  obtain ⟨h0', h1', h2'⟩ := h'
  exact ⟨h0'.trans h0, h1'.trans h1, h2'.trans h2⟩

/-- Settles O38: the flow transfer after the `mtcr` reads FOFT in the CR0 that the `mtcr` left. -/
theorem foftWriteGovernsTheNextBranch : Obligations.FoftWriteGovernsTheNextBranch := by
  intro rd s
  have hkept := s.writeCell_pipeKept .cr0 (s.reg rd)
  refine ⟨_, execMtcr_of_some (s.resolve_cop0 0) rd, hkept, fun o htransfers => ?_⟩
  obtain ⟨u, hu, hflushed, hslots⟩ := htransfers.pipeAfterFlow
  rw [State.retirePlain_cr0] at hflushed hslots
  exact ⟨u, hu, hflushed, fun hfoft => hkept.trans (hslots hfoft)⟩

end Sys2Proof.Machine
end
